-- ==== Sys2Proof/Word.lean ====
section
/-! DEFINITION. The words of the machine: 32-bit registers and addresses (00_scope.md R4, R9), bytes, and register numbers. -/

namespace Sys2Proof

/-- A register value or a physical address: XLEN and the address width are 32 (00_scope.md R9). -/
abbrev Word := BitVec 32

/-- One byte of memory (20_memory.md R130). -/
abbrev Byte := BitVec 8

/-- The number of an integer register, x0 to x31 (10_state.md R20). -/
abbrev Reg := BitVec 5

/-- A 3-bit register field of the compressed formats; it names x8 to x15 (30_encoding.md R184). -/
abbrev CReg := BitVec 3

/-- The 12-bit address of a CSR (10_state.md R40). -/
abbrev CsrAddr := BitVec 12

end Sys2Proof
end

