-- ==== Sys2Proof/Syntax.lean ====
section
/-! DEFINITION. The instructions: one constructor for each row of opcode_table.json (30_encoding.md R173 to R187).
Offsets and scaled immediates are held as the values the rules give them (a branch offset with its bit 0, a
scaled offset with its low zeros); WellFormed.lean says which values an encoding can express. -/

namespace Sys2Proof

/-- The instructions of RV32IMAC and the four SYSTEM words of the core. -/
inductive Instr where
  -- 40_rv32i_integer.md
  | lui (rd : Reg) (imm : BitVec 20)
  | auipc (rd : Reg) (imm : BitVec 20)
  | addi (rd rs1 : Reg) (imm : BitVec 12)
  | slti (rd rs1 : Reg) (imm : BitVec 12)
  | sltiu (rd rs1 : Reg) (imm : BitVec 12)
  | xori (rd rs1 : Reg) (imm : BitVec 12)
  | ori (rd rs1 : Reg) (imm : BitVec 12)
  | andi (rd rs1 : Reg) (imm : BitVec 12)
  | slli (rd rs1 : Reg) (shamt : BitVec 5)
  | srli (rd rs1 : Reg) (shamt : BitVec 5)
  | srai (rd rs1 : Reg) (shamt : BitVec 5)
  | add (rd rs1 rs2 : Reg)
  | sub (rd rs1 rs2 : Reg)
  | sll (rd rs1 rs2 : Reg)
  | slt (rd rs1 rs2 : Reg)
  | sltu (rd rs1 rs2 : Reg)
  | xor (rd rs1 rs2 : Reg)
  | srl (rd rs1 rs2 : Reg)
  | sra (rd rs1 rs2 : Reg)
  | or (rd rs1 rs2 : Reg)
  | and (rd rs1 rs2 : Reg)
  -- 41_rv32i_control.md
  | jal (rd : Reg) (offset : BitVec 21)
  | jalr (rd rs1 : Reg) (imm : BitVec 12)
  | beq (rs1 rs2 : Reg) (offset : BitVec 13)
  | bne (rs1 rs2 : Reg) (offset : BitVec 13)
  | blt (rs1 rs2 : Reg) (offset : BitVec 13)
  | bge (rs1 rs2 : Reg) (offset : BitVec 13)
  | bltu (rs1 rs2 : Reg) (offset : BitVec 13)
  | bgeu (rs1 rs2 : Reg) (offset : BitVec 13)
  -- 42_rv32i_loadstore_fence.md
  | lb (rd rs1 : Reg) (imm : BitVec 12)
  | lh (rd rs1 : Reg) (imm : BitVec 12)
  | lw (rd rs1 : Reg) (imm : BitVec 12)
  | lbu (rd rs1 : Reg) (imm : BitVec 12)
  | lhu (rd rs1 : Reg) (imm : BitVec 12)
  | sb (rs1 rs2 : Reg) (imm : BitVec 12)
  | sh (rs1 rs2 : Reg) (imm : BitVec 12)
  | sw (rs1 rs2 : Reg) (imm : BitVec 12)
  | fence (fm pred succ : BitVec 4) (rs1 rd : Reg)
  | fenceI (imm : BitVec 12) (rs1 rd : Reg)
  -- 43_system_csr.md
  | ecall
  | ebreak
  | mret
  | wfi
  | csrrw (rd rs1 : Reg) (csr : CsrAddr)
  | csrrs (rd rs1 : Reg) (csr : CsrAddr)
  | csrrc (rd rs1 : Reg) (csr : CsrAddr)
  | csrrwi (rd : Reg) (uimm : BitVec 5) (csr : CsrAddr)
  | csrrsi (rd : Reg) (uimm : BitVec 5) (csr : CsrAddr)
  | csrrci (rd : Reg) (uimm : BitVec 5) (csr : CsrAddr)
  -- 44_m_muldiv.md
  | mul (rd rs1 rs2 : Reg)
  | mulh (rd rs1 rs2 : Reg)
  | mulhsu (rd rs1 rs2 : Reg)
  | mulhu (rd rs1 rs2 : Reg)
  | div (rd rs1 rs2 : Reg)
  | divu (rd rs1 rs2 : Reg)
  | rem (rd rs1 rs2 : Reg)
  | remu (rd rs1 rs2 : Reg)
  -- 45_a_atomic.md
  | lrW (rd rs1 : Reg) (aq rl : BitVec 1)
  | scW (rd rs1 rs2 : Reg) (aq rl : BitVec 1)
  | amoswapW (rd rs1 rs2 : Reg) (aq rl : BitVec 1)
  | amoaddW (rd rs1 rs2 : Reg) (aq rl : BitVec 1)
  | amoxorW (rd rs1 rs2 : Reg) (aq rl : BitVec 1)
  | amoandW (rd rs1 rs2 : Reg) (aq rl : BitVec 1)
  | amoorW (rd rs1 rs2 : Reg) (aq rl : BitVec 1)
  | amominW (rd rs1 rs2 : Reg) (aq rl : BitVec 1)
  | amomaxW (rd rs1 rs2 : Reg) (aq rl : BitVec 1)
  | amominuW (rd rs1 rs2 : Reg) (aq rl : BitVec 1)
  | amomaxuW (rd rs1 rs2 : Reg) (aq rl : BitVec 1)
  -- 46_c_compressed.md
  | cAddi4spn (rd : CReg) (nzuimm : BitVec 10)
  | cLw (rd rs1 : CReg) (uimm : BitVec 7)
  | cSw (rs1 rs2 : CReg) (uimm : BitVec 7)
  | cNop (imm : BitVec 6)
  | cAddi (rd : Reg) (imm : BitVec 6)
  | cJal (offset : BitVec 12)
  | cLi (rd : Reg) (imm : BitVec 6)
  | cAddi16sp (nzimm : BitVec 10)
  /-- `nzimm` is the 6-bit field nzimm[17:12] -/
  | cLui (rd : Reg) (nzimm : BitVec 6)
  | cSrli (rd : CReg) (shamt : BitVec 5)
  | cSrai (rd : CReg) (shamt : BitVec 5)
  | cAndi (rd : CReg) (imm : BitVec 6)
  | cSub (rd rs2 : CReg)
  | cXor (rd rs2 : CReg)
  | cOr (rd rs2 : CReg)
  | cAnd (rd rs2 : CReg)
  | cJ (offset : BitVec 12)
  | cBeqz (rs1 : CReg) (offset : BitVec 9)
  | cBnez (rs1 : CReg) (offset : BitVec 9)
  | cSlli (rd : Reg) (shamt : BitVec 5)
  | cLwsp (rd : Reg) (uimm : BitVec 8)
  | cJr (rs1 : Reg)
  | cMv (rd rs2 : Reg)
  | cEbreak
  | cJalr (rs1 : Reg)
  | cAdd (rd rs2 : Reg)
  | cSwsp (rs2 : Reg) (uimm : BitVec 8)
deriving DecidableEq, Repr

end Sys2Proof
end

