-- ==== Sys2Proof/WellFormed.lean ====
section
/-! DEFINITION. Which terms of Instr an encoding can express (30_encoding.md R177, R179, R189; 46_c_compressed.md). -/

namespace Sys2Proof

/-- `v` is a multiple of `k`: the low zeros of an offset or a scaled immediate. -/
def multipleOf {n : Nat} (k : Nat) (v : BitVec n) : Bool := v.toNat % k == 0

/-- The instruction has an encoding: offsets are even (R177, R179, R346, R358), scaled immediates are multiples of
their scale (R341, R342, R348, R361), and the fields that 46_c_compressed.md wants non-zero are. -/
def Instr.wf : Instr → Bool
  | .lui _ _ => true
  | .auipc _ _ => true
  | .addi _ _ _ => true
  | .slti _ _ _ => true
  | .sltiu _ _ _ => true
  | .xori _ _ _ => true
  | .ori _ _ _ => true
  | .andi _ _ _ => true
  | .slli _ _ _ => true
  | .srli _ _ _ => true
  | .srai _ _ _ => true
  | .add _ _ _ => true
  | .sub _ _ _ => true
  | .sll _ _ _ => true
  | .slt _ _ _ => true
  | .sltu _ _ _ => true
  | .xor _ _ _ => true
  | .srl _ _ _ => true
  | .sra _ _ _ => true
  | .or _ _ _ => true
  | .and _ _ _ => true
  | .jal _ offset => multipleOf 2 offset
  | .jalr _ _ _ => true
  | .beq _ _ offset => multipleOf 2 offset
  | .bne _ _ offset => multipleOf 2 offset
  | .blt _ _ offset => multipleOf 2 offset
  | .bge _ _ offset => multipleOf 2 offset
  | .bltu _ _ offset => multipleOf 2 offset
  | .bgeu _ _ offset => multipleOf 2 offset
  | .lb _ _ _ => true
  | .lh _ _ _ => true
  | .lw _ _ _ => true
  | .lbu _ _ _ => true
  | .lhu _ _ _ => true
  | .sb _ _ _ => true
  | .sh _ _ _ => true
  | .sw _ _ _ => true
  | .fence _ _ _ _ _ => true
  | .fenceI _ _ _ => true
  | .ecall => true
  | .ebreak => true
  | .mret => true
  | .wfi => true
  | .csrrw _ _ _ => true
  | .csrrs _ _ _ => true
  | .csrrc _ _ _ => true
  | .csrrwi _ _ _ => true
  | .csrrsi _ _ _ => true
  | .csrrci _ _ _ => true
  | .mul _ _ _ => true
  | .mulh _ _ _ => true
  | .mulhsu _ _ _ => true
  | .mulhu _ _ _ => true
  | .div _ _ _ => true
  | .divu _ _ _ => true
  | .rem _ _ _ => true
  | .remu _ _ _ => true
  | .lrW _ _ _ _ => true
  | .scW _ _ _ _ _ => true
  | .amoswapW _ _ _ _ _ => true
  | .amoaddW _ _ _ _ _ => true
  | .amoxorW _ _ _ _ _ => true
  | .amoandW _ _ _ _ _ => true
  | .amoorW _ _ _ _ _ => true
  | .amominW _ _ _ _ _ => true
  | .amomaxW _ _ _ _ _ => true
  | .amominuW _ _ _ _ _ => true
  | .amomaxuW _ _ _ _ _ => true
  | .cAddi4spn _ nzuimm => multipleOf 4 nzuimm && nzuimm != 0#10
  | .cLw _ _ uimm => multipleOf 4 uimm
  | .cSw _ _ uimm => multipleOf 4 uimm
  | .cNop _ => true
  | .cAddi rd _ => rd != 0#5
  | .cJal offset => multipleOf 2 offset
  | .cLi _ _ => true
  | .cAddi16sp nzimm => multipleOf 16 nzimm && nzimm != 0#10
  | .cLui rd nzimm => rd != 2#5 && nzimm != 0#6
  | .cSrli _ _ => true
  | .cSrai _ _ => true
  | .cAndi _ _ => true
  | .cSub _ _ => true
  | .cXor _ _ => true
  | .cOr _ _ => true
  | .cAnd _ _ => true
  | .cJ offset => multipleOf 2 offset
  | .cBeqz _ offset => multipleOf 2 offset
  | .cBnez _ offset => multipleOf 2 offset
  | .cSlli _ _ => true
  | .cLwsp rd uimm => multipleOf 4 uimm && rd != 0#5
  | .cJr rs1 => rs1 != 0#5
  | .cMv _ rs2 => rs2 != 0#5
  | .cEbreak => true
  | .cJalr rs1 => rs1 != 0#5
  | .cAdd _ rs2 => rs2 != 0#5
  | .cSwsp _ uimm => multipleOf 4 uimm

end Sys2Proof
end

