-- ==== Sys2Proof/Decode.lean ====
section
/-! DEFINITION. The decoder and the encoder, both written from 30_encoding.md R170 to R191 and 46_c_compressed.md.
The decoder is total: a word that no row of the opcode table accepts is rejected by name. -/

namespace Sys2Proof

/-- The bits of one instruction: a 16-bit parcel or a 32-bit word (30_encoding.md R170). -/
inductive Encoding where
  | half (p : BitVec 16)
  | full (w : Word)
deriving DecidableEq, Repr

/-- Why bytes are not an instruction. -/
inductive DecodeReject where
  /-- fewer bytes than the length rule asks for -/
  | truncated
  /-- bits 4:2 = 111 select a format longer than 32 bits (30_encoding.md R172) -/
  | longFormat
  /-- a 16-bit word that no row accepts (30_encoding.md R188) -/
  | illegalHalf
  /-- a 32-bit word that no row accepts (30_encoding.md R188) -/
  | illegalWord
deriving DecidableEq, Repr

/-! ## Immediates of the 32-bit formats (R175 to R180) -/

/-- I-immediate field (R175). -/
def immI (w : Word) : BitVec 12 := w.extractLsb' 20 12

/-- S-immediate field (R176). -/
def immS (w : Word) : BitVec 12 := w.extractLsb' 25 7 ++ w.extractLsb' 7 5

/-- B-immediate (R177). -/
def immB (w : Word) : BitVec 13 :=
  w.extractLsb' 31 1 ++ w.extractLsb' 7 1 ++ w.extractLsb' 25 6 ++ w.extractLsb' 8 4 ++ 0#1

/-- U-immediate field, bits 31:12 of the immediate (R178). -/
def immU (w : Word) : BitVec 20 := w.extractLsb' 12 20

/-- J-immediate (R179). -/
def immJ (w : Word) : BitVec 21 :=
  w.extractLsb' 31 1 ++ w.extractLsb' 12 8 ++ w.extractLsb' 20 1 ++ w.extractLsb' 21 10 ++ 0#1

/-! ## Immediates of the 16-bit formats (R341 to R367) -/

/-- nzuimm of c.addi4spn (R341). -/
def immCiw (p : BitVec 16) : BitVec 10 :=
  p.extractLsb' 7 4 ++ p.extractLsb' 11 2 ++ p.extractLsb' 5 1 ++ p.extractLsb' 6 1 ++ 0#2

/-- uimm of c.lw and c.sw (R342). -/
def immCl (p : BitVec 16) : BitVec 7 :=
  p.extractLsb' 5 1 ++ p.extractLsb' 10 3 ++ p.extractLsb' 6 1 ++ 0#2

/-- The 6-bit immediate of the CI format (R345). -/
def immCi (p : BitVec 16) : BitVec 6 := p.extractLsb' 12 1 ++ p.extractLsb' 2 5

/-- nzimm of c.addi16sp (R348). -/
def immC16sp (p : BitVec 16) : BitVec 10 :=
  p.extractLsb' 12 1 ++ p.extractLsb' 3 2 ++ p.extractLsb' 5 1 ++ p.extractLsb' 2 1 ++ p.extractLsb' 6 1 ++ 0#4

/-- offset of c.jal and c.j (R346). -/
def immCj (p : BitVec 16) : BitVec 12 :=
  p.extractLsb' 12 1 ++ p.extractLsb' 8 1 ++ p.extractLsb' 9 2 ++ p.extractLsb' 6 1 ++ p.extractLsb' 7 1
    ++ p.extractLsb' 2 1 ++ p.extractLsb' 11 1 ++ p.extractLsb' 3 3 ++ 0#1

/-- offset of c.beqz and c.bnez (R358). -/
def immCb (p : BitVec 16) : BitVec 9 :=
  p.extractLsb' 12 1 ++ p.extractLsb' 5 2 ++ p.extractLsb' 2 1 ++ p.extractLsb' 10 2 ++ p.extractLsb' 3 2 ++ 0#1

/-- uimm of c.lwsp (R361). -/
def immClwsp (p : BitVec 16) : BitVec 8 :=
  p.extractLsb' 2 2 ++ p.extractLsb' 12 1 ++ p.extractLsb' 4 3 ++ 0#2

/-- uimm of c.swsp (R367). -/
def immCss (p : BitVec 16) : BitVec 8 := p.extractLsb' 7 2 ++ p.extractLsb' 9 4 ++ 0#2

/-! ## The decoder -/

/-- The register fields (R173). -/
def fieldRd (w : Word) : Reg := w.extractLsb' 7 5
def fieldRs1 (w : Word) : Reg := w.extractLsb' 15 5
def fieldRs2 (w : Word) : Reg := w.extractLsb' 20 5
def fieldFunct3 (w : Word) : BitVec 3 := w.extractLsb' 12 3
def fieldFunct7 (w : Word) : BitVec 7 := w.extractLsb' 25 7
def fieldOpcode (w : Word) : BitVec 7 := w.extractLsb' 0 7

/-- Opcode BRANCH (R186). -/
def decodeBranch (w : Word) : Option Instr :=
  match fieldFunct3 w with
  | 0b000#3 => some (.beq (fieldRs1 w) (fieldRs2 w) (immB w))
  | 0b001#3 => some (.bne (fieldRs1 w) (fieldRs2 w) (immB w))
  | 0b100#3 => some (.blt (fieldRs1 w) (fieldRs2 w) (immB w))
  | 0b101#3 => some (.bge (fieldRs1 w) (fieldRs2 w) (immB w))
  | 0b110#3 => some (.bltu (fieldRs1 w) (fieldRs2 w) (immB w))
  | 0b111#3 => some (.bgeu (fieldRs1 w) (fieldRs2 w) (immB w))
  | _ => none

/-- Opcode LOAD (R186, R263). -/
def decodeLoad (w : Word) : Option Instr :=
  match fieldFunct3 w with
  | 0b000#3 => some (.lb (fieldRd w) (fieldRs1 w) (immI w))
  | 0b001#3 => some (.lh (fieldRd w) (fieldRs1 w) (immI w))
  | 0b010#3 => some (.lw (fieldRd w) (fieldRs1 w) (immI w))
  | 0b100#3 => some (.lbu (fieldRd w) (fieldRs1 w) (immI w))
  | 0b101#3 => some (.lhu (fieldRd w) (fieldRs1 w) (immI w))
  | _ => none

/-- Opcode STORE (R186, R267). -/
def decodeStore (w : Word) : Option Instr :=
  match fieldFunct3 w with
  | 0b000#3 => some (.sb (fieldRs1 w) (fieldRs2 w) (immS w))
  | 0b001#3 => some (.sh (fieldRs1 w) (fieldRs2 w) (immS w))
  | 0b010#3 => some (.sw (fieldRs1 w) (fieldRs2 w) (immS w))
  | _ => none

/-- Opcode OP-IMM; a shift with another funct7 is illegal (R186, R189). -/
def decodeOpImm (w : Word) : Option Instr :=
  match fieldFunct3 w with
  | 0b000#3 => some (.addi (fieldRd w) (fieldRs1 w) (immI w))
  | 0b010#3 => some (.slti (fieldRd w) (fieldRs1 w) (immI w))
  | 0b011#3 => some (.sltiu (fieldRd w) (fieldRs1 w) (immI w))
  | 0b100#3 => some (.xori (fieldRd w) (fieldRs1 w) (immI w))
  | 0b110#3 => some (.ori (fieldRd w) (fieldRs1 w) (immI w))
  | 0b111#3 => some (.andi (fieldRd w) (fieldRs1 w) (immI w))
  | 0b001#3 => if fieldFunct7 w = 0b0000000#7 then some (.slli (fieldRd w) (fieldRs1 w) (fieldRs2 w)) else none
  | 0b101#3 =>
    if fieldFunct7 w = 0b0000000#7 then some (.srli (fieldRd w) (fieldRs1 w) (fieldRs2 w))
    else if fieldFunct7 w = 0b0100000#7 then some (.srai (fieldRd w) (fieldRs1 w) (fieldRs2 w)) else none

/-- Opcode OP (R186, R320). -/
def decodeOp (w : Word) : Option Instr :=
  match fieldFunct7 w, fieldFunct3 w with
  | 0b0000000#7, 0b000#3 => some (.add (fieldRd w) (fieldRs1 w) (fieldRs2 w))
  | 0b0000000#7, 0b001#3 => some (.sll (fieldRd w) (fieldRs1 w) (fieldRs2 w))
  | 0b0000000#7, 0b010#3 => some (.slt (fieldRd w) (fieldRs1 w) (fieldRs2 w))
  | 0b0000000#7, 0b011#3 => some (.sltu (fieldRd w) (fieldRs1 w) (fieldRs2 w))
  | 0b0000000#7, 0b100#3 => some (.xor (fieldRd w) (fieldRs1 w) (fieldRs2 w))
  | 0b0000000#7, 0b101#3 => some (.srl (fieldRd w) (fieldRs1 w) (fieldRs2 w))
  | 0b0000000#7, 0b110#3 => some (.or (fieldRd w) (fieldRs1 w) (fieldRs2 w))
  | 0b0000000#7, 0b111#3 => some (.and (fieldRd w) (fieldRs1 w) (fieldRs2 w))
  | 0b0100000#7, 0b000#3 => some (.sub (fieldRd w) (fieldRs1 w) (fieldRs2 w))
  | 0b0100000#7, 0b101#3 => some (.sra (fieldRd w) (fieldRs1 w) (fieldRs2 w))
  | 0b0000001#7, 0b000#3 => some (.mul (fieldRd w) (fieldRs1 w) (fieldRs2 w))
  | 0b0000001#7, 0b001#3 => some (.mulh (fieldRd w) (fieldRs1 w) (fieldRs2 w))
  | 0b0000001#7, 0b010#3 => some (.mulhsu (fieldRd w) (fieldRs1 w) (fieldRs2 w))
  | 0b0000001#7, 0b011#3 => some (.mulhu (fieldRd w) (fieldRs1 w) (fieldRs2 w))
  | 0b0000001#7, 0b100#3 => some (.div (fieldRd w) (fieldRs1 w) (fieldRs2 w))
  | 0b0000001#7, 0b101#3 => some (.divu (fieldRd w) (fieldRs1 w) (fieldRs2 w))
  | 0b0000001#7, 0b110#3 => some (.rem (fieldRd w) (fieldRs1 w) (fieldRs2 w))
  | 0b0000001#7, 0b111#3 => some (.remu (fieldRd w) (fieldRs1 w) (fieldRs2 w))
  | _, _ => none

/-- Opcode MISC-MEM (R186, R270 to R272). -/
def decodeMiscMem (w : Word) : Option Instr :=
  match fieldFunct3 w with
  | 0b000#3 => some (.fence (w.extractLsb' 28 4) (w.extractLsb' 24 4) (w.extractLsb' 20 4) (fieldRs1 w) (fieldRd w))
  | 0b001#3 => some (.fenceI (immI w) (fieldRs1 w) (fieldRd w))
  | _ => none

/-- Opcode AMO: words only, lr.w with rs2 = 0 only (R186, R189, R339). -/
def decodeAmo (w : Word) : Option Instr :=
  if fieldFunct3 w = 0b010#3 then
    match w.extractLsb' 27 5 with
    | 0b00010#5 => if fieldRs2 w = 0#5 then some (.lrW (fieldRd w) (fieldRs1 w) (w.extractLsb' 26 1) (w.extractLsb' 25 1)) else none
    | 0b00011#5 => some (.scW (fieldRd w) (fieldRs1 w) (fieldRs2 w) (w.extractLsb' 26 1) (w.extractLsb' 25 1))
    | 0b00001#5 => some (.amoswapW (fieldRd w) (fieldRs1 w) (fieldRs2 w) (w.extractLsb' 26 1) (w.extractLsb' 25 1))
    | 0b00000#5 => some (.amoaddW (fieldRd w) (fieldRs1 w) (fieldRs2 w) (w.extractLsb' 26 1) (w.extractLsb' 25 1))
    | 0b00100#5 => some (.amoxorW (fieldRd w) (fieldRs1 w) (fieldRs2 w) (w.extractLsb' 26 1) (w.extractLsb' 25 1))
    | 0b01100#5 => some (.amoandW (fieldRd w) (fieldRs1 w) (fieldRs2 w) (w.extractLsb' 26 1) (w.extractLsb' 25 1))
    | 0b01000#5 => some (.amoorW (fieldRd w) (fieldRs1 w) (fieldRs2 w) (w.extractLsb' 26 1) (w.extractLsb' 25 1))
    | 0b10000#5 => some (.amominW (fieldRd w) (fieldRs1 w) (fieldRs2 w) (w.extractLsb' 26 1) (w.extractLsb' 25 1))
    | 0b10100#5 => some (.amomaxW (fieldRd w) (fieldRs1 w) (fieldRs2 w) (w.extractLsb' 26 1) (w.extractLsb' 25 1))
    | 0b11000#5 => some (.amominuW (fieldRd w) (fieldRs1 w) (fieldRs2 w) (w.extractLsb' 26 1) (w.extractLsb' 25 1))
    | 0b11100#5 => some (.amomaxuW (fieldRd w) (fieldRs1 w) (fieldRs2 w) (w.extractLsb' 26 1) (w.extractLsb' 25 1))
    | _ => none
  else none

/-- Opcode SYSTEM: four whole words and the six CSR instructions (R186, R189, R306). -/
def decodeSystem (w : Word) : Option Instr :=
  match fieldFunct3 w with
  | 0b000#3 =>
    if w = 0x00000073#32 then some .ecall
    else if w = 0x00100073#32 then some .ebreak
    else if w = 0x30200073#32 then some .mret
    else if w = 0x10500073#32 then some .wfi else none
  | 0b001#3 => some (.csrrw (fieldRd w) (fieldRs1 w) (immI w))
  | 0b010#3 => some (.csrrs (fieldRd w) (fieldRs1 w) (immI w))
  | 0b011#3 => some (.csrrc (fieldRd w) (fieldRs1 w) (immI w))
  | 0b101#3 => some (.csrrwi (fieldRd w) (fieldRs1 w) (immI w))
  | 0b110#3 => some (.csrrsi (fieldRd w) (fieldRs1 w) (immI w))
  | 0b111#3 => some (.csrrci (fieldRd w) (fieldRs1 w) (immI w))
  | _ => none

/-- A 32-bit word, by its opcode (R186); every other opcode is illegal (R188, R191). -/
def decode32 (w : Word) : Option Instr :=
  match fieldOpcode w with
  | 0b0110111#7 => some (.lui (fieldRd w) (immU w))
  | 0b0010111#7 => some (.auipc (fieldRd w) (immU w))
  | 0b1101111#7 => some (.jal (fieldRd w) (immJ w))
  | 0b1100111#7 => if fieldFunct3 w = 0b000#3 then some (.jalr (fieldRd w) (fieldRs1 w) (immI w)) else none
  | 0b1100011#7 => decodeBranch w
  | 0b0000011#7 => decodeLoad w
  | 0b0100011#7 => decodeStore w
  | 0b0010011#7 => decodeOpImm w
  | 0b0110011#7 => decodeOp w
  | 0b0001111#7 => decodeMiscMem w
  | 0b0101111#7 => decodeAmo w
  | 0b1110011#7 => decodeSystem w
  | _ => none

/-- The fields of a 16-bit word (R183, R184). -/
def cFunct3 (p : BitVec 16) : BitVec 3 := p.extractLsb' 13 3
def cRd (p : BitVec 16) : Reg := p.extractLsb' 7 5
def cRs2 (p : BitVec 16) : Reg := p.extractLsb' 2 5
def cHi (p : BitVec 16) : CReg := p.extractLsb' 7 3
def cLo (p : BitVec 16) : CReg := p.extractLsb' 2 3
def cBit12 (p : BitVec 16) : BitVec 1 := p.extractLsb' 12 1

/-- Quadrant 0 (R187, R341 to R344). -/
def decodeQ0 (p : BitVec 16) : Option Instr :=
  match cFunct3 p with
  | 0b000#3 => if immCiw p = 0#10 then none else some (.cAddi4spn (cLo p) (immCiw p))
  | 0b010#3 => some (.cLw (cLo p) (cHi p) (immCl p))
  | 0b110#3 => some (.cSw (cHi p) (cLo p) (immCl p))
  | _ => none

/-- Quadrant 1, funct3 = 100 (R187, R350 to R356). -/
def decodeQ1Alu (p : BitVec 16) : Option Instr :=
  match p.extractLsb' 10 2 with
  | 0b00#2 => if cBit12 p = 0#1 then some (.cSrli (cHi p) (cRs2 p)) else none
  | 0b01#2 => if cBit12 p = 0#1 then some (.cSrai (cHi p) (cRs2 p)) else none
  | 0b10#2 => some (.cAndi (cHi p) (immCi p))
  | _ =>
    if cBit12 p = 0#1 then
      match p.extractLsb' 5 2 with
      | 0b00#2 => some (.cSub (cHi p) (cLo p))
      | 0b01#2 => some (.cXor (cHi p) (cLo p))
      | 0b10#2 => some (.cOr (cHi p) (cLo p))
      | _ => some (.cAnd (cHi p) (cLo p))
    else none

/-- Quadrant 1, funct3 = 011 (R187, R348, R349). -/
def decodeQ1Lui (p : BitVec 16) : Option Instr :=
  if cRd p = 2#5 then
    if immC16sp p = 0#10 then none else some (.cAddi16sp (immC16sp p))
  else if immCi p = 0#6 then none else some (.cLui (cRd p) (immCi p))

/-- Quadrant 1 (R187, R345 to R359). -/
def decodeQ1 (p : BitVec 16) : Option Instr :=
  match cFunct3 p with
  | 0b000#3 => if cRd p = 0#5 then some (.cNop (immCi p)) else some (.cAddi (cRd p) (immCi p))
  | 0b001#3 => some (.cJal (immCj p))
  | 0b010#3 => some (.cLi (cRd p) (immCi p))
  | 0b011#3 => decodeQ1Lui p
  | 0b100#3 => decodeQ1Alu p
  | 0b101#3 => some (.cJ (immCj p))
  | 0b110#3 => some (.cBeqz (cHi p) (immCb p))
  | _ => some (.cBnez (cHi p) (immCb p))

/-- Quadrant 2, funct3 = 100 (R369). -/
def decodeQ2Jump (p : BitVec 16) : Option Instr :=
  if cBit12 p = 0#1 then
    if cRs2 p = 0#5 then (if cRd p = 0#5 then none else some (.cJr (cRd p)))
    else some (.cMv (cRd p) (cRs2 p))
  else if cRs2 p = 0#5 then (if cRd p = 0#5 then some .cEbreak else some (.cJalr (cRd p)))
  else some (.cAdd (cRd p) (cRs2 p))

/-- Quadrant 2 (R187, R360 to R368). -/
def decodeQ2 (p : BitVec 16) : Option Instr :=
  match cFunct3 p with
  | 0b000#3 => if cBit12 p = 0#1 then some (.cSlli (cRd p) (cRs2 p)) else none
  | 0b010#3 => if cRd p = 0#5 then none else some (.cLwsp (cRd p) (immClwsp p))
  | 0b100#3 => decodeQ2Jump p
  | 0b110#3 => some (.cSwsp (cRs2 p) (immCss p))
  | _ => none

/-- A 16-bit word, by its quadrant (R187); quadrant 3 is no 16-bit instruction (R172). -/
def decode16 (p : BitVec 16) : Option Instr :=
  match p.extractLsb' 0 2 with
  | 0b00#2 => decodeQ0 p
  | 0b01#2 => decodeQ1 p
  | 0b10#2 => decodeQ2 p
  | _ => none

/-- The length rule on the first parcel: a 16-bit instruction iff bits 1:0 are not 11 (R172). -/
def isHalf (p : BitVec 16) : Bool := p.extractLsb' 0 2 != 0b11#2

/-- The instruction of an encoding, or why there is none (R172, R188). -/
def decodeEncoding : Encoding → Except DecodeReject Instr
  | .half p =>
    match decode16 p with
    | some i => .ok i
    | none => .error .illegalHalf
  | .full w =>
    if w.extractLsb' 2 3 = 0b111#3 then .error .longFormat
    else match decode32 w with
      | some i => .ok i
      | none => .error .illegalWord

/-- The first instruction of a list of bytes, lowest address first, and the bytes after it (R131, R170 to R172). -/
def decode : List Byte → Except DecodeReject (Instr × List Byte)
  | b0 :: b1 :: rest =>
    if isHalf (b1 ++ b0) then
      match decodeEncoding (.half (b1 ++ b0)) with
      | .ok i => .ok (i, rest)
      | .error e => .error e
    else match rest with
      | b2 :: b3 :: rest' =>
        match decodeEncoding (.full (b3 ++ b2 ++ b1 ++ b0)) with
        | .ok i => .ok (i, rest')
        | .error e => .error e
      | _ => .error .truncated
  | _ => .error .truncated

/-! ## The encoder -/

/-- The six base formats (R173). -/
def encR (f7 : BitVec 7) (rs2 rs1 : Reg) (f3 : BitVec 3) (rd : Reg) (op : BitVec 7) : Word :=
  f7 ++ rs2 ++ rs1 ++ f3 ++ rd ++ op
def encI (imm : BitVec 12) (rs1 : Reg) (f3 : BitVec 3) (rd : Reg) (op : BitVec 7) : Word :=
  imm ++ rs1 ++ f3 ++ rd ++ op
def encS (imm : BitVec 12) (rs2 rs1 : Reg) (f3 : BitVec 3) : Word :=
  imm.extractLsb' 5 7 ++ rs2 ++ rs1 ++ f3 ++ imm.extractLsb' 0 5 ++ 0b0100011#7
def encB (imm : BitVec 13) (rs2 rs1 : Reg) (f3 : BitVec 3) : Word :=
  imm.extractLsb' 12 1 ++ imm.extractLsb' 5 6 ++ rs2 ++ rs1 ++ f3 ++ imm.extractLsb' 1 4 ++ imm.extractLsb' 11 1
    ++ 0b1100011#7
def encU (imm : BitVec 20) (rd : Reg) (op : BitVec 7) : Word := imm ++ rd ++ op
def encJ (imm : BitVec 21) (rd : Reg) : Word :=
  imm.extractLsb' 20 1 ++ imm.extractLsb' 1 10 ++ imm.extractLsb' 11 1 ++ imm.extractLsb' 12 8 ++ rd ++ 0b1101111#7
def encA (f5 : BitVec 5) (aq rl : BitVec 1) (rs2 rs1 rd : Reg) : Word :=
  f5 ++ aq ++ rl ++ rs2 ++ rs1 ++ 0b010#3 ++ rd ++ 0b0101111#7

/-- The compressed formats (R183, and the rule of each instruction). -/
def encCi (f3 : BitVec 3) (imm : BitVec 6) (rd : Reg) (q : BitVec 2) : BitVec 16 :=
  f3 ++ imm.extractLsb' 5 1 ++ rd ++ imm.extractLsb' 0 5 ++ q
def encCj (f3 : BitVec 3) (o : BitVec 12) : BitVec 16 :=
  f3 ++ o.extractLsb' 11 1 ++ o.extractLsb' 4 1 ++ o.extractLsb' 8 2 ++ o.extractLsb' 10 1 ++ o.extractLsb' 6 1
    ++ o.extractLsb' 7 1 ++ o.extractLsb' 1 3 ++ o.extractLsb' 5 1 ++ 0b01#2
def encCb (f3 : BitVec 3) (rs1 : CReg) (o : BitVec 9) : BitVec 16 :=
  f3 ++ o.extractLsb' 8 1 ++ o.extractLsb' 3 2 ++ rs1 ++ o.extractLsb' 6 2 ++ o.extractLsb' 1 2 ++ o.extractLsb' 5 1
    ++ 0b01#2
def encCls (f3 : BitVec 3) (rs1 r : CReg) (u : BitVec 7) : BitVec 16 :=
  f3 ++ u.extractLsb' 3 3 ++ rs1 ++ u.extractLsb' 2 1 ++ u.extractLsb' 6 1 ++ r ++ 0b00#2
def encCa (f2 : BitVec 2) (rd rs2 : CReg) : BitVec 16 :=
  0b100011#6 ++ rd ++ f2 ++ rs2 ++ 0b01#2
def encCshift (f2 : BitVec 2) (rd : CReg) (shamt : BitVec 5) : BitVec 16 :=
  0b100#3 ++ 0#1 ++ f2 ++ rd ++ shamt ++ 0b01#2
def encCr (f4 : BitVec 4) (rd rs2 : Reg) : BitVec 16 := f4 ++ rd ++ rs2 ++ 0b10#2
def encCiw (rd : CReg) (u : BitVec 10) : BitVec 16 :=
  0b000#3 ++ u.extractLsb' 4 2 ++ u.extractLsb' 6 4 ++ u.extractLsb' 2 1 ++ u.extractLsb' 3 1 ++ rd ++ 0b00#2
def encC16sp (n : BitVec 10) : BitVec 16 :=
  0b011#3 ++ n.extractLsb' 9 1 ++ 2#5 ++ n.extractLsb' 4 1 ++ n.extractLsb' 6 1 ++ n.extractLsb' 7 2
    ++ n.extractLsb' 5 1 ++ 0b01#2
def encCandi (rd : CReg) (imm : BitVec 6) : BitVec 16 :=
  0b100#3 ++ imm.extractLsb' 5 1 ++ 0b10#2 ++ rd ++ imm.extractLsb' 0 5 ++ 0b01#2
def encCslli (rd shamt : BitVec 5) : BitVec 16 := 0b000#3 ++ 0#1 ++ rd ++ shamt ++ 0b10#2
def encClwsp (rd : Reg) (u : BitVec 8) : BitVec 16 :=
  0b010#3 ++ u.extractLsb' 5 1 ++ rd ++ u.extractLsb' 2 3 ++ u.extractLsb' 6 2 ++ 0b10#2
def encCss (rs2 : Reg) (u : BitVec 8) : BitVec 16 :=
  0b110#3 ++ u.extractLsb' 2 4 ++ u.extractLsb' 6 2 ++ rs2 ++ 0b10#2

/-- The encoding of an instruction, from the same tables (R173 to R187, R341 to R367). -/
def encode : Instr → Encoding
  | .lui rd imm => .full (encU imm rd 0b0110111#7)
  | .auipc rd imm => .full (encU imm rd 0b0010111#7)
  | .addi rd rs1 imm => .full (encI imm rs1 0b000#3 rd 0b0010011#7)
  | .slti rd rs1 imm => .full (encI imm rs1 0b010#3 rd 0b0010011#7)
  | .sltiu rd rs1 imm => .full (encI imm rs1 0b011#3 rd 0b0010011#7)
  | .xori rd rs1 imm => .full (encI imm rs1 0b100#3 rd 0b0010011#7)
  | .ori rd rs1 imm => .full (encI imm rs1 0b110#3 rd 0b0010011#7)
  | .andi rd rs1 imm => .full (encI imm rs1 0b111#3 rd 0b0010011#7)
  | .slli rd rs1 shamt => .full (encR 0b0000000#7 shamt rs1 0b001#3 rd 0b0010011#7)
  | .srli rd rs1 shamt => .full (encR 0b0000000#7 shamt rs1 0b101#3 rd 0b0010011#7)
  | .srai rd rs1 shamt => .full (encR 0b0100000#7 shamt rs1 0b101#3 rd 0b0010011#7)
  | .add rd rs1 rs2 => .full (encR 0b0000000#7 rs2 rs1 0b000#3 rd 0b0110011#7)
  | .sub rd rs1 rs2 => .full (encR 0b0100000#7 rs2 rs1 0b000#3 rd 0b0110011#7)
  | .sll rd rs1 rs2 => .full (encR 0b0000000#7 rs2 rs1 0b001#3 rd 0b0110011#7)
  | .slt rd rs1 rs2 => .full (encR 0b0000000#7 rs2 rs1 0b010#3 rd 0b0110011#7)
  | .sltu rd rs1 rs2 => .full (encR 0b0000000#7 rs2 rs1 0b011#3 rd 0b0110011#7)
  | .xor rd rs1 rs2 => .full (encR 0b0000000#7 rs2 rs1 0b100#3 rd 0b0110011#7)
  | .srl rd rs1 rs2 => .full (encR 0b0000000#7 rs2 rs1 0b101#3 rd 0b0110011#7)
  | .sra rd rs1 rs2 => .full (encR 0b0100000#7 rs2 rs1 0b101#3 rd 0b0110011#7)
  | .or rd rs1 rs2 => .full (encR 0b0000000#7 rs2 rs1 0b110#3 rd 0b0110011#7)
  | .and rd rs1 rs2 => .full (encR 0b0000000#7 rs2 rs1 0b111#3 rd 0b0110011#7)
  | .jal rd offset => .full (encJ offset rd)
  | .jalr rd rs1 imm => .full (encI imm rs1 0b000#3 rd 0b1100111#7)
  | .beq rs1 rs2 offset => .full (encB offset rs2 rs1 0b000#3)
  | .bne rs1 rs2 offset => .full (encB offset rs2 rs1 0b001#3)
  | .blt rs1 rs2 offset => .full (encB offset rs2 rs1 0b100#3)
  | .bge rs1 rs2 offset => .full (encB offset rs2 rs1 0b101#3)
  | .bltu rs1 rs2 offset => .full (encB offset rs2 rs1 0b110#3)
  | .bgeu rs1 rs2 offset => .full (encB offset rs2 rs1 0b111#3)
  | .lb rd rs1 imm => .full (encI imm rs1 0b000#3 rd 0b0000011#7)
  | .lh rd rs1 imm => .full (encI imm rs1 0b001#3 rd 0b0000011#7)
  | .lw rd rs1 imm => .full (encI imm rs1 0b010#3 rd 0b0000011#7)
  | .lbu rd rs1 imm => .full (encI imm rs1 0b100#3 rd 0b0000011#7)
  | .lhu rd rs1 imm => .full (encI imm rs1 0b101#3 rd 0b0000011#7)
  | .sb rs1 rs2 imm => .full (encS imm rs2 rs1 0b000#3)
  | .sh rs1 rs2 imm => .full (encS imm rs2 rs1 0b001#3)
  | .sw rs1 rs2 imm => .full (encS imm rs2 rs1 0b010#3)
  | .fence fm pred succ rs1 rd => .full (encI (fm ++ pred ++ succ) rs1 0b000#3 rd 0b0001111#7)
  | .fenceI imm rs1 rd => .full (encI imm rs1 0b001#3 rd 0b0001111#7)
  | .ecall => .full 0x00000073#32
  | .ebreak => .full 0x00100073#32
  | .mret => .full 0x30200073#32
  | .wfi => .full 0x10500073#32
  | .csrrw rd rs1 csr => .full (encI csr rs1 0b001#3 rd 0b1110011#7)
  | .csrrs rd rs1 csr => .full (encI csr rs1 0b010#3 rd 0b1110011#7)
  | .csrrc rd rs1 csr => .full (encI csr rs1 0b011#3 rd 0b1110011#7)
  | .csrrwi rd uimm csr => .full (encI csr uimm 0b101#3 rd 0b1110011#7)
  | .csrrsi rd uimm csr => .full (encI csr uimm 0b110#3 rd 0b1110011#7)
  | .csrrci rd uimm csr => .full (encI csr uimm 0b111#3 rd 0b1110011#7)
  | .mul rd rs1 rs2 => .full (encR 0b0000001#7 rs2 rs1 0b000#3 rd 0b0110011#7)
  | .mulh rd rs1 rs2 => .full (encR 0b0000001#7 rs2 rs1 0b001#3 rd 0b0110011#7)
  | .mulhsu rd rs1 rs2 => .full (encR 0b0000001#7 rs2 rs1 0b010#3 rd 0b0110011#7)
  | .mulhu rd rs1 rs2 => .full (encR 0b0000001#7 rs2 rs1 0b011#3 rd 0b0110011#7)
  | .div rd rs1 rs2 => .full (encR 0b0000001#7 rs2 rs1 0b100#3 rd 0b0110011#7)
  | .divu rd rs1 rs2 => .full (encR 0b0000001#7 rs2 rs1 0b101#3 rd 0b0110011#7)
  | .rem rd rs1 rs2 => .full (encR 0b0000001#7 rs2 rs1 0b110#3 rd 0b0110011#7)
  | .remu rd rs1 rs2 => .full (encR 0b0000001#7 rs2 rs1 0b111#3 rd 0b0110011#7)
  | .lrW rd rs1 aq rl => .full (encA 0b00010#5 aq rl 0#5 rs1 rd)
  | .scW rd rs1 rs2 aq rl => .full (encA 0b00011#5 aq rl rs2 rs1 rd)
  | .amoswapW rd rs1 rs2 aq rl => .full (encA 0b00001#5 aq rl rs2 rs1 rd)
  | .amoaddW rd rs1 rs2 aq rl => .full (encA 0b00000#5 aq rl rs2 rs1 rd)
  | .amoxorW rd rs1 rs2 aq rl => .full (encA 0b00100#5 aq rl rs2 rs1 rd)
  | .amoandW rd rs1 rs2 aq rl => .full (encA 0b01100#5 aq rl rs2 rs1 rd)
  | .amoorW rd rs1 rs2 aq rl => .full (encA 0b01000#5 aq rl rs2 rs1 rd)
  | .amominW rd rs1 rs2 aq rl => .full (encA 0b10000#5 aq rl rs2 rs1 rd)
  | .amomaxW rd rs1 rs2 aq rl => .full (encA 0b10100#5 aq rl rs2 rs1 rd)
  | .amominuW rd rs1 rs2 aq rl => .full (encA 0b11000#5 aq rl rs2 rs1 rd)
  | .amomaxuW rd rs1 rs2 aq rl => .full (encA 0b11100#5 aq rl rs2 rs1 rd)
  | .cAddi4spn rd nzuimm => .half (encCiw rd nzuimm)
  | .cLw rd rs1 uimm => .half (encCls 0b010#3 rs1 rd uimm)
  | .cSw rs1 rs2 uimm => .half (encCls 0b110#3 rs1 rs2 uimm)
  | .cNop imm => .half (encCi 0b000#3 imm 0#5 0b01#2)
  | .cAddi rd imm => .half (encCi 0b000#3 imm rd 0b01#2)
  | .cJal offset => .half (encCj 0b001#3 offset)
  | .cLi rd imm => .half (encCi 0b010#3 imm rd 0b01#2)
  | .cAddi16sp nzimm => .half (encC16sp nzimm)
  | .cLui rd nzimm => .half (encCi 0b011#3 nzimm rd 0b01#2)
  | .cSrli rd shamt => .half (encCshift 0b00#2 rd shamt)
  | .cSrai rd shamt => .half (encCshift 0b01#2 rd shamt)
  | .cAndi rd imm => .half (encCandi rd imm)
  | .cSub rd rs2 => .half (encCa 0b00#2 rd rs2)
  | .cXor rd rs2 => .half (encCa 0b01#2 rd rs2)
  | .cOr rd rs2 => .half (encCa 0b10#2 rd rs2)
  | .cAnd rd rs2 => .half (encCa 0b11#2 rd rs2)
  | .cJ offset => .half (encCj 0b101#3 offset)
  | .cBeqz rs1 offset => .half (encCb 0b110#3 rs1 offset)
  | .cBnez rs1 offset => .half (encCb 0b111#3 rs1 offset)
  | .cSlli rd shamt => .half (encCslli rd shamt)
  | .cLwsp rd uimm => .half (encClwsp rd uimm)
  | .cJr rs1 => .half (encCr 0b1000#4 rs1 0#5)
  | .cMv rd rs2 => .half (encCr 0b1000#4 rd rs2)
  | .cEbreak => .half 0x9002#16
  | .cJalr rs1 => .half (encCr 0b1001#4 rs1 0#5)
  | .cAdd rd rs2 => .half (encCr 0b1001#4 rd rs2)
  | .cSwsp rs2 uimm => .half (encCss rs2 uimm)

/-- The encoding as bytes, lowest address first (20_memory.md R131). -/
def Encoding.bytes : Encoding → List Byte
  | .half p => [p.extractLsb' 0 8, p.extractLsb' 8 8]
  | .full w => [w.extractLsb' 0 8, w.extractLsb' 8 8, w.extractLsb' 16 8, w.extractLsb' 24 8]

/-- The encoding as a 32-bit value, a parcel zero-extended: what mtval receives (30_encoding.md R188). -/
def Encoding.toWord : Encoding → Word
  | .half p => p.setWidth 32
  | .full w => w

/-- The instruction word of an instruction, for mtval (30_encoding.md R188). -/
def encodedWord (i : Instr) : Word := (encode i).toWord

/-! ## One row of the opcode table -/

/-- The first `n` bytes of the number `w`, least significant first. -/
def leBytes : Nat → Nat → List Byte
  | 0, _ => []
  | n + 1, w => BitVec.ofNat 8 w :: leBytes n (w / 256)

/-- The bytes of an instruction whose `nbits` lowest bits are `w` and whose other bits, up to the longest
instruction, are 0. -/
def tableBytes (nbits w : Nat) : List Byte := leBytes 4 (w % 2 ^ nbits)

/-- What the decoder reads from an instruction of the opcode table. -/
def decodeTableWord (nbits w : Nat) : Option Instr :=
  match decode (tableBytes nbits w) with
  | .ok (i, _) => some i
  | .error _ => none

end Sys2Proof
end

