-- ==== Sys2Proof/Config.lean ====
section
/-! DEFINITION. What an implementation fixes: the OPEN parameters of 00_scope.md R9, and the free values of the
model. A Config is plain data and stands in State, so a statement about every state is one about every
implementation. A free value is an opaque constant applied to the step counter: nothing is known of it. -/

namespace Sys2Proof

/-- What a region of the platform's memory map holds (20_memory.md R141, 92 Part 2). -/
inductive RegionKind where
  | ram
  /-- read only; `writeError` says whether a write answers with an access error or is ignored -/
  | rom (writeError : Bool)
deriving DecidableEq, Repr

/-- A region of the platform's memory map: `size` bytes from `base`. Addresses in no region and in no device
window answer with an access error (20_memory.md R139). -/
structure Region where
  base : Nat
  size : Nat
  kind : RegionKind
deriving DecidableEq, Repr

/-- The two admissible readings of what an mnxti access returns (43_system_csr.md R297). -/
inductive MnxtiReading where
  /-- the content of the vector table entry -/
  | entryContent
  /-- the address of the vector table entry -/
  | entryAddress
deriving DecidableEq, Repr

/-- The parameters that the sources leave to the implementation (00_scope.md R9, 92 Part 2). -/
structure Config where
  hasUmode       : Bool
  resetVector    : Word
  timerBase      : Word
  eclicBase      : Word
  numInterrupt   : Nat
  clicIntCtlBits : Nat
  eclicVersion   : Byte
  mvendorid      : Word
  marchid        : Word
  mimpid         : Word
  mhartid        : Word
  /-- bit 23 of misa, which the sources leave open (11_csr.md R58) -/
  misaX          : Bool
  memoryMap      : List Region
  mnxtiReading   : MnxtiReading
deriving DecidableEq, Repr

/-- What 00_scope.md R9 and 92 Part 2 say of the parameters: an even reset vector, a TIMER window aligned to 4 KB, 19 to
4096 interrupt sources, 2 to 8 effective clicintctl bits. ECLIC_BASE is any address (log 39). -/
def Config.wf (c : Config) : Bool :=
  c.resetVector.toNat % 2 == 0
    && c.timerBase.toNat % 0x1000 == 0
    && decide (19 ≤ c.numInterrupt) && decide (c.numInterrupt ≤ 4096)
    && decide (2 ≤ c.clicIntCtlBits) && decide (c.clicIntCtlBits ≤ 8)

/-- The example platform of 95_test_vectors.md section 0, with the identity registers read as 0
(DESIGN CHOICE, log 1: the sources give none of these values). -/
def Config.example : Config :=
  { hasUmode := true
    resetVector := 0x00000000#32
    timerBase := 0x40000000#32
    eclicBase := 0x40010000#32
    numInterrupt := 32
    clicIntCtlBits := 4
    eclicVersion := 0#8
    mvendorid := 0#32
    marchid := 0#32
    mimpid := 0#32
    mhartid := 0#32
    misaX := false
    memoryMap := [{ base := 0, size := 0x10000, kind := .ram }]
    mnxtiReading := .entryContent }

/-- Free value: what a load puts into its register, and what a table read or the read half of an atomic gives, when
the platform signals an access error (20_memory.md R139; log 9). -/
opaque Config.freeLoad : Nat → Word

/-- Free value: byte `i` of what a failing store leaves in memory (20_memory.md R139; log 10). -/
opaque Config.freeStore : Nat → Nat → Byte

/-- Free value: what bit 17 of mstatus reads as (11_csr.md R61, 93 U6; log 16). -/
opaque Config.freeStatusBit : Nat → Bool

/-- Free value: whether mstatus.MPP reads as M after a code that is no mode of the core was put into it, and
which mode `mret` enters on such a code (11_csr.md R57, 93 U5; log 14). Arguments: the step counter, and 0 for a code
put into MPP, 1 for the mode that `mret` enters. -/
opaque Config.freeModeIsM : Nat → Nat → Bool

/-- Free value: whether an instruction that writes minstret or minstreth is itself counted
(11_csr.md R77, 93 U10; log 15). -/
opaque Config.freeOwnCount : Nat → Bool

/-- Free value: how old the bytes are that the fetch of a parcel sees, when they were stored since the last
fence.i (20_memory.md R145; log 13). Arguments: the step counter and the parcel's number. -/
opaque Config.freeFetchAge : Nat → Nat → Nat

end Sys2Proof
end

