-- ==== Sys2Proof/Machine/State.lean ====
section
/-! DEFINITION. The state of the machine, as INVENTORY.md lists it: plain data, everything 10_state.md, 11_csr.md and
61_timer_eclic_lowpower.md name. Fields that are the model's own say so. -/

namespace Sys2Proof.Machine

/-- The privilege modes (10_state.md R24, 60_exceptions.md R400). -/
inductive Priv where
  | user
  | machine
deriving DecidableEq, Repr

/-- The machine sub-modes, codes 0 to 3 of msubm.TYP (10_state.md R25, 60_exceptions.md R405). -/
inductive SubMode where
  | normal
  | interrupt
  | exception
  | nmi
deriving DecidableEq, Repr

/-- One level of the NMI/exception state stack: msaveepc, msavecause and its half of msavestatus (11_csr.md R85 to
R87). `cause` has the layout of mcause, its bits 29:27 plain storage. -/
structure SaveLevel where
  epc   : Word
  cause : Word
  mpie  : Bool
  mpp   : BitVec 2
  ptyp  : SubMode
deriving DecidableEq, Repr

/-- The writable fields of the CSRs (11_csr.md); the mirrors of mstatus.MPIE and MPP in mcause are these same
fields (R57). -/
structure CsrFile where
  /-- mstatus.MIE, MPIE, MPP, XS (R56, R57, R63) -/
  mie  : Bool
  mpie : Bool
  mpp  : BitVec 2
  xs   : BitVec 2
  /-- mcause.INTERRUPT, MINHV, MPIL, EXCCODE (R70) -/
  causeInterrupt : Bool
  causeMinhv     : Bool
  causeMpil      : BitVec 8
  causeExccode   : BitVec 12
  mtvec    : Word
  mtvt     : Word
  mtvt2    : Word
  mscratch : Word
  mepc     : Word
  mtval    : Word
  /-- mintstatus.MIL, UIL (R73) -/
  mil : BitVec 8
  uil : BitVec 8
  /-- msubm.TYP, PTYP (R83) -/
  typ  : SubMode
  ptyp : SubMode
  /-- mmisc_ctl.NMI_CAUSE_FFF (R84) -/
  nmiCauseFff : Bool
  /-- the first and the second level of the state stack (R85 to R87) -/
  save1 : SaveLevel
  save2 : SaveLevel
  /-- mcounteren.CY, TM, IR (R66) -/
  counterenCy : Bool
  counterenTm : Bool
  counterenIr : Bool
  /-- mcountinhibit.CY, IR (R81) -/
  inhibitCy : Bool
  inhibitIr : Bool
  /-- wfe.WFE (R95) -/
  wfe : Bool
  /-- sleepvalue.SLEEPVALUE (R93) -/
  sleepvalue : Bool
deriving DecidableEq, Repr

/-- The TIMER unit (61_timer_eclic_lowpower.md R460 to R465). -/
structure Timer where
  mtime    : BitVec 64
  mtimecmp : BitVec 64
  timestop : Bool
  msip     : Bool
deriving DecidableEq, Repr

/-- One ECLIC source: clicintip, clicintie, clicintattr, clicintctl and the previous sample of its input
(10_state.md R29, 61 R478 to R482). `ctl` is the byte as read, its unimplemented low bits 1. -/
structure Source where
  ip   : Bool
  ie   : Bool
  shv  : Bool
  /-- trig[0]: 1 for edge-triggered -/
  edge : Bool
  /-- trig[1]: with edge-triggered, 1 for the falling edge -/
  falling : Bool
  ctl  : BitVec 8
  prev : Bool
deriving DecidableEq, Repr

/-- The ECLIC unit: cliccfg.nlbits, mth, and one Source for each id (61 R473 to R482). -/
structure Eclic where
  nlbits  : BitVec 4
  mth     : BitVec 8
  sources : List Source
deriving DecidableEq, Repr

/-- Memory as (address, byte) pairs (20_memory.md R130); Machine/Memory.lean says what an unlisted address reads. -/
abbrev Memory := List Host.Cell

/-- What the outside world shows the hart at one instruction boundary (10_state.md R33 to R36, 60_exceptions.md
R410, 93 U9). The MODEL's own record. -/
structure EnvSample where
  /-- the level of the input nmi -/
  nmi : Bool
  /-- the external sources whose input is high -/
  high : List Nat
  /-- the level of the input rx_evt -/
  rxEvt : Bool
  /-- ticks of mtime_toggle_a since the previous boundary -/
  ticks : Nat
  /-- clock cycles since the previous boundary, as mcycle counts them -/
  cycles : Nat
  /-- an outstanding data access error is reported at this boundary (61 R472) -/
  deliverError : Bool
  /-- a reset arrives (70_reset_and_hazards.md R600) -/
  reset : Bool
deriving DecidableEq, Repr

/-- A boundary at which nothing happens outside and the cycle counter moves by one. -/
def EnvSample.quiet : EnvSample :=
  { nmi := false, high := [], rxEvt := false, ticks := 0, cycles := 1, deliverError := true, reset := false }

/-- The state of the machine. -/
structure State where
  /-- the parameters of the implementation (00_scope.md R9); no step changes them -/
  cfg  : Config
  /-- x0 to x31; the entry of x0 is not used (Machine/Ops.lean, 10_state.md R20) -/
  regs : Vector Word 32
  pc   : Word
  priv : Priv
  csr  : CsrFile
  /-- the counters (10_state.md R31) -/
  mcycle   : BitVec 64
  minstret : BitVec 64
  timer : Timer
  eclic : Eclic
  mem   : Memory
  /-- the address reserved by lr.w (10_state.md R27) -/
  reservation : Option Word
  /-- the previous sample of nmi, and nmi_pending (10_state.md R28) -/
  nmiPrev    : Bool
  nmiPending : Bool
  /-- 10_state.md R30 -/
  sleeping : Bool
  /-- rx_evt as sampled at the last boundary (10_state.md R35) -/
  rxEvt : Bool
  /-- MODEL's own: the number of pulses on the output tx_evt (11_csr.md R94; log 28) -/
  txPulses : Nat
  /-- MODEL's own: for each store since the last fence.i, newest first, the bytes it replaced (20_memory.md R145; log 13) -/
  storeLog : List (List Host.Cell)
  /-- MODEL's own: data access errors not yet reported to ECLIC source 17 (61 R472; log 12) -/
  errorReports : Nat
  /-- MODEL's own: what the coming boundaries will see, and what all boundaries after these will see (log 7) -/
  env     : List EnvSample
  envRest : EnvSample
  /-- MODEL's own: the number of boundaries so far; free values are applied to it (log 8) -/
  steps : Nat
deriving DecidableEq, Repr

/-- How the machine can stop with a fault. -/
inductive Fault where
  /-- Raised by `step` when an interrupt would be taken while mtvec.MODE is not 0b000011: that mode is described by no
  source (60_exceptions.md R435, decision D12). Safe. -/
  | defaultInterruptMode
deriving DecidableEq, Repr

/-- What the spec gives no behaviour to. -/
inductive Refusal where
  /-- Raised by an arm of `exec` whose instruction has no meaning yet. Safe. -/
  | notModelled (mnemonic : String)
  /-- Raised by a byte or halfword access to the TIMER window (61 R461, decision D22). Safe. -/
  | timerAccessSize
  /-- Raised by lr.w, sc.w and the AMOs on a device window (45 R339, decision D22). Safe. -/
  | atomicOnDevice
  /-- Raised by an instruction fetch from the TIMER window (61 R461). Safe. -/
  | fetchFromTimer
  /-- Raised by the access forms of mnxti, jalmnxti, pushm* and mscratchcsw(l) that no source describes (43 R304,
  decision D25). Safe. -/
  | undocumentedCsrForm
  /-- Raised by an access to mie or mip while mtvec.MODE is not 0b000011 (11_csr.md R59, R60, 93 U8). Safe. -/
  | mieMipOutsideEclicMode
deriving DecidableEq, Repr

/-- What every instruction and every step answers with. -/
abbrev Out := Host.Outcome State Fault Refusal

/-- A level of the state stack after reset: no source gives its value (70_reset_and_hazards.md R601; DESIGN CHOICE
0, log 3). -/
def SaveLevel.reset : SaveLevel := { epc := 0, cause := 0, mpie := false, mpp := 0, ptyp := .normal }

/-- The CSR fields after reset: MIE, MPIE, MPP, XS, TYP, PTYP, MIL, mcounteren, MTVT2EN, WFE and SLEEPVALUE from
10_state.md R45 and D15; the others DESIGN CHOICE 0 (log 3). -/
def CsrFile.reset : CsrFile :=
  { mie := false, mpie := false, mpp := 0, xs := 0
    causeInterrupt := false, causeMinhv := false, causeMpil := 0, causeExccode := 0
    mtvec := 0, mtvt := 0, mtvt2 := 0, mscratch := 0, mepc := 0, mtval := 0
    mil := 0, uil := 0, typ := .normal, ptyp := .normal, nmiCauseFff := false
    save1 := .reset, save2 := .reset
    counterenCy := false, counterenTm := false, counterenIr := false
    inhibitCy := false, inhibitIr := false, wfe := false, sleepvalue := false }

/-- The TIMER after reset (10_state.md R43). -/
def Timer.reset : Timer := { mtime := 0, mtimecmp := BitVec.allOnes 64, timestop := false, msip := false }

/-- A source after reset (10_state.md R44, 61 R481, R482): the writable bits of clicintctl DESIGN CHOICE 0 (log 4). -/
def Source.reset (ctlBits : Nat) : Source :=
  { ip := false, ie := false, shv := false, edge := false, falling := false, ctl := 0xFF#8 >>> ctlBits, prev := false }

/-- The ECLIC after reset (10_state.md R44): mth DESIGN CHOICE 0 (log 4). -/
def Eclic.reset (c : Config) : Eclic :=
  { nlbits := 0, mth := 0, sources := List.replicate c.numInterrupt (Source.reset c.clicIntCtlBits) }

/-- The machine right after reset on an implementation with the parameters `c` (10_state.md R45,
70_reset_and_hazards.md R601, R602): x1 to x31, mcycle and minstret DESIGN CHOICE 0 (log 2, 3), memory with nothing
listed (log 5), a quiet environment (log 7). -/
def State.resetWith (c : Config) : State :=
  { cfg := c
    regs := Vector.replicate 32 0
    pc := c.resetVector
    priv := .machine
    csr := .reset
    mcycle := 0
    minstret := 0
    timer := .reset
    eclic := .reset c
    mem := []
    reservation := none
    nmiPrev := false
    nmiPending := false
    sleeping := false
    rxEvt := false
    txPulses := 0
    storeLog := []
    errorReports := 0
    env := []
    envRest := .quiet
    steps := 0 }

/-- The machine right after reset, on the example platform (log 1). -/
def State.reset : State := State.resetWith Config.example

end Sys2Proof.Machine
end

