-- ==== Sys2Proof/Machine/Memory.lean ====
section
/-! DEFINITION. Memory as bytes: one byte read and written in the canonical form, wider values in little-endian order
(20_memory.md R130, R131), and the platform's map of it (R141). -/

namespace Sys2Proof.Machine

/-- What a byte that nothing has written reads as (70_reset_and_hazards.md R602 gives none; DESIGN CHOICE, log 5). -/
def unlistedByte : Byte := 0#8

/-- The byte at address `a`. -/
def Memory.read : Memory → Nat → Byte
  | [], _ => unlistedByte
  | (k, v) :: m, a => if k = a then v else Memory.read m a

/-- Memory with byte `b` at address `a`, in canonical form again. -/
def Memory.write : Memory → Nat → Byte → Memory
  | [], a, b => if b = unlistedByte then [] else [(a, b)]
  | (k, v) :: m, a, b =>
    if a < k then (if b = unlistedByte then (k, v) :: m else (a, b) :: (k, v) :: m)
    else if a = k then (if b = unlistedByte then m else (a, b) :: m)
    else (k, v) :: Memory.write m a b

/-- The entries of `m` have rising addresses from `lo` on, below 2^32, and no entry is what an unlisted address reads. -/
def Memory.wfFrom : Nat → Memory → Bool
  | _, [] => true
  | lo, (k, v) :: m => decide (lo ≤ k) && decide (k < 2 ^ 32) && v != unlistedByte && Memory.wfFrom (k + 1) m

/-- The canonical form. -/
def Memory.wf (m : Memory) : Bool := Memory.wfFrom 0 m

/-- The `n` low bytes of a word (R133). -/
def wordBytes (v : Word) : Nat → List Byte
  | 0 => []
  | n + 1 => v.setWidth 8 :: wordBytes (v >>> 8) n

/-- Write bytes at consecutive addresses, the first at `a`, leaving out the addresses that `p` does not hold of. -/
def Memory.writeWhere (p : Nat → Bool) : Memory → Nat → List Byte → Memory
  | m, _, [] => m
  | m, a, b :: bs => Memory.writeWhere p (if p a then Memory.write m a b else m) (a + 1) bs

/-- The cells at the `n` addresses from `a` on, as they are now. -/
def Memory.cellsAt (m : Memory) (a : Nat) : Nat → List Host.Cell
  | 0 => []
  | n + 1 => (a, Memory.read m a) :: Memory.cellsAt m (a + 1) n

/-- Put cells back. -/
def Memory.restore : Memory → List Host.Cell → Memory
  | m, [] => m
  | m, (a, b) :: cs => Memory.restore (Memory.write m a b) cs

/-- The little-endian value of the `n` bytes at `a`, for n at most 4 (R131, R132). -/
def Memory.readLE (m : Memory) (a : Nat) : Nat → Word
  | 0 => 0
  | n + 1 => (Memory.read m a).setWidth 32 ||| (Memory.readLE m (a + 1) n <<< 8)

/-- The parcel at the even address `a` (R131, R134). -/
def Memory.readParcel (m : Memory) (a : Nat) : BitVec 16 := Memory.read m (a + 1) ++ Memory.read m a

/-! ## The map -/

/-- Byte `a` lies in region `r`. -/
def Region.has (r : Region) (a : Nat) : Bool := decide (r.base ≤ a) && decide (a < r.base + r.size)

/-- What the platform has at byte address `a`; the first region that has it counts (R141). -/
def regionAt : List Region → Nat → Option RegionKind
  | [], _ => none
  | r :: rs, a => if Region.has r a then some r.kind else regionAt rs a

/-- What answers an access: a register window of the core, with the offset into it, or the platform's memory
(R141; the windows come first, log 24). -/
inductive Place where
  | timer (offset : Nat)
  | eclic (offset : Nat)
  | memory
deriving DecidableEq, Repr

/-- Which of them answers at address `a`: the offset from a base is taken modulo 2^32 (61 R460, R473, 20_memory.md
R130). -/
def placeOf (c : Config) (a : Word) : Place :=
  if (a - c.timerBase).toNat < 0x1000 then .timer (a - c.timerBase).toNat
  else if (a - c.eclicBase).toNat < 0x10000 then .eclic (a - c.eclicBase).toNat
  else .memory

/-- Byte `a` is RAM or ROM. -/
def isMapped (c : Config) (a : Nat) : Bool := (regionAt c.memoryMap a).isSome

/-- A read of the `n` bytes at `a` is answered without an error (R139). -/
def readable (c : Config) (a : Nat) : Nat → Bool
  | 0 => true
  | n + 1 => isMapped c a && readable c (a + 1) n

/-- A byte that answers a write without an error: RAM, or ROM that ignores writes (R139). -/
def byteWritable (c : Config) (a : Nat) : Bool :=
  match regionAt c.memoryMap a with
  | some .ram => true
  | some (.rom writeError) => !writeError
  | none => false

/-- A write of the `n` bytes at `a` is answered without an error (R139). -/
def writable (c : Config) (a : Nat) : Nat → Bool
  | 0 => true
  | n + 1 => byteWritable c a && writable c (a + 1) n

/-- Byte `a` is RAM. -/
def isRam (c : Config) (a : Nat) : Bool :=
  match regionAt c.memoryMap a with
  | some .ram => true
  | _ => false

end Sys2Proof.Machine
end

