-- ==== Sys2Proof/Machine/Timer.lean ====
section
/-! DEFINITION. The TIMER unit: its window, its counter and its two interrupt levels
(61_timer_eclic_lowpower.md R460 to R465). -/

namespace Sys2Proof.Machine

/-- A bit as a 32-bit value. -/
def bitWord (b : Bool) : Word := if b then 1#32 else 0#32

/-- The low and the high half of a 64-bit register. -/
def lowHalf (v : BitVec 64) : Word := v.extractLsb' 0 32
def highHalf (v : BitVec 64) : Word := v.extractLsb' 32 32

/-- A 64-bit register with one half replaced. -/
def withLow (v : BitVec 64) (w : Word) : BitVec 64 := highHalf v ++ w
def withHigh (v : BitVec 64) (w : Word) : BitVec 64 := w ++ lowHalf v

/-- The word at an offset of the window; an offset with no register reads 0 (R460, R463, R465). -/
def Timer.read (t : Timer) (offset : Nat) : Word :=
  if offset = 0x0 then lowHalf t.mtime
  else if offset = 0x4 then highHalf t.mtime
  else if offset = 0x8 then lowHalf t.mtimecmp
  else if offset = 0xC then highHalf t.mtimecmp
  else if offset = 0xFF8 then bitWord t.timestop
  else if offset = 0xFFC then bitWord t.msip
  else 0#32

/-- A word write; an offset with no register ignores it (R460, R462 to R465). -/
def Timer.write (t : Timer) (offset : Nat) (v : Word) : Timer :=
  if offset = 0x0 then { t with mtime := withLow t.mtime v }
  else if offset = 0x4 then { t with mtime := withHigh t.mtime v }
  else if offset = 0x8 then { t with mtimecmp := withLow t.mtimecmp v }
  else if offset = 0xC then { t with mtimecmp := withHigh t.mtimecmp v }
  else if offset = 0xFF8 then { t with timestop := v.getLsbD 0 }
  else if offset = 0xFFC then { t with msip := v.getLsbD 0 }
  else t

/-- `n` ticks of mtime_toggle_a (R462, R463). -/
def Timer.tick (t : Timer) (n : Nat) : Timer :=
  if t.timestop then t else { t with mtime := t.mtime + BitVec.ofNat 64 n }

/-- The timer interrupt level (R464). -/
def Timer.irq (t : Timer) : Bool := decide (t.mtimecmp.toNat ≤ t.mtime.toNat)

end Sys2Proof.Machine
end

