-- ==== Sys2Proof/Machine/Eclic.lean ====
section
/-! DEFINITION. The ECLIC unit: its byte registers, the pending bits and the arbitration
(61_timer_eclic_lowpower.md R470 to R488). -/

namespace Sys2Proof.Machine

/-! ## The byte registers -/

/-- cliccfg as read (R475). -/
def cliccfgByte (e : Eclic) : Byte := 0b000#3 ++ e.nlbits ++ 0b1#1

/-- clicinfo as read (R476). -/
def clicinfoWord (c : Config) : Word :=
  0#7 ++ BitVec.ofNat 4 c.clicIntCtlBits ++ c.eclicVersion ++ BitVec.ofNat 13 c.numInterrupt

/-- A bit as a byte register with constant 0 in bits 7:1 (R478, R479). -/
def bitByte (b : Bool) : Byte := if b then 1#8 else 0#8

/-- clicintattr as read (R480). -/
def attrByte (src : Source) : Byte :=
  0b11000#5 ++ BitVec.ofBool src.falling ++ BitVec.ofBool src.edge ++ BitVec.ofBool src.shv

/-- Byte register `k` of a source, k = 0 to 3: clicintip, clicintie, clicintattr, clicintctl (R473). -/
def sourceByte (src : Source) (k : Nat) : Byte :=
  match k with
  | 0 => bitByte src.ip
  | 1 => bitByte src.ie
  | 2 => attrByte src
  | _ => src.ctl

/-- The low bits of clicintctl that are constant 1 (R482). -/
def ctlOnes (c : Config) : Byte := 0xFF#8 >>> c.clicIntCtlBits

/-- A write to byte register `k` of a source: the pending bit only while edge-triggered (R481), the unimplemented low
bits of clicintctl stay 1 (R482). -/
def sourceWrite (c : Config) (src : Source) (k : Nat) (b : Byte) : Source :=
  match k with
  | 0 => if src.edge then { src with ip := b.getLsbD 0 } else src
  | 1 => { src with ie := b.getLsbD 0 }
  | 2 => { src with falling := b.getLsbD 2, edge := b.getLsbD 1, shv := b.getLsbD 0 }
  | _ => { src with ctl := b ||| ctlOnes c }

/-- The byte at an offset of the window; an offset with no register reads 0 (R473). -/
def eclicReadByte (c : Config) (e : Eclic) (offset : Nat) : Byte :=
  if offset = 0x0 then cliccfgByte e
  else if offset = 0xB then e.mth
  else if 0x4 ≤ offset ∧ offset < 0x8 then (clicinfoWord c >>> (8 * (offset - 4))).setWidth 8
  else if 0x1000 ≤ offset then
    match e.sources[(offset - 0x1000) / 4]? with
    | some src => sourceByte src ((offset - 0x1000) % 4)
    | none => 0#8
  else 0#8

/-- The sources with source `i` replaced by its image. -/
def updateSource (f : Source → Source) : Nat → List Source → List Source
  | _, [] => []
  | 0, src :: rest => f src :: rest
  | i + 1, src :: rest => src :: updateSource f i rest

/-- A byte write to the window; an offset with no writable register ignores it (R473, R474). -/
def eclicWriteByte (c : Config) (e : Eclic) (offset : Nat) (b : Byte) : Eclic :=
  if offset = 0x0 then { e with nlbits := b.extractLsb' 1 4 }
  else if offset = 0xB then { e with mth := b }
  else if 0x1000 ≤ offset then
    { e with sources :=
        updateSource (fun src => sourceWrite c src ((offset - 0x1000) % 4) b) ((offset - 0x1000) / 4) e.sources }
  else e

/-- The `n` byte registers from an offset on, in little-endian order (R474). -/
def eclicRead (c : Config) (e : Eclic) (offset : Nat) : Nat → Word
  | 0 => 0
  | n + 1 => (eclicReadByte c e offset).setWidth 32 ||| (eclicRead c e (offset + 1) n <<< 8)

/-- A write of byte registers from an offset on, the lowest address first (R474; log 38). -/
def eclicWrite (c : Config) : Eclic → Nat → List Byte → Eclic
  | e, _, [] => e
  | e, offset, b :: bs => eclicWrite c (eclicWriteByte c e offset b) (offset + 1) bs

/-! ## Level, priority and arbitration -/

/-- The number of level bits in use (R483). -/
def levelBits (e : Eclic) : Nat := min e.nlbits.toNat 8

/-- The level of a source with control byte `ctl` (R483). -/
def levelOf (e : Eclic) (ctl : Byte) : Byte := ctl ||| (0xFF#8 >>> levelBits e)

/-- The priority of a source with control byte `ctl` (R483). -/
def priorityOf (e : Eclic) (ctl : Byte) : Byte := (ctl <<< levelBits e) ||| (BitVec.ofNat 8 (2 ^ levelBits e - 1))

/-- A candidate of the arbitration (R487). -/
structure Candidate where
  id       : Nat
  level    : Byte
  priority : Byte
  shv      : Bool
deriving DecidableEq, Repr

/-- `b`, later in the list and so of a greater id, wins against `a`: (level, priority, id) is greater (R487). -/
def beats (b a : Candidate) : Bool :=
  decide (a.level.toNat < b.level.toNat)
    || (a.level == b.level && decide (a.priority.toNat ≤ b.priority.toNat))

/-- The candidate of source `i` (R487). -/
def candidateOf (e : Eclic) (i : Nat) (src : Source) : Candidate :=
  { id := i, level := levelOf e src.ctl, priority := priorityOf e src.ctl, shv := src.shv }

/-- The greatest candidate among `best` and the enabled, pending sources from id `i` on (R487). -/
def arbitrate (e : Eclic) : Option Candidate → Nat → List Source → Option Candidate
  | best, _, [] => best
  | best, i, src :: rest =>
    if src.ie && src.ip then
      match best with
      | none => arbitrate e (some (candidateOf e i src)) (i + 1) rest
      | some a =>
        if beats (candidateOf e i src) a then arbitrate e (some (candidateOf e i src)) (i + 1) rest
        else arbitrate e (some a) (i + 1) rest
    else arbitrate e best (i + 1) rest

/-- The ECLIC's request: the winner, when its level is above mth (R487). -/
def eclicRequest (e : Eclic) : Option Candidate :=
  match arbitrate e none 0 e.sources with
  | some w => if e.mth.toNat < w.level.toNat then some w else none
  | none => none

/-- The pending bit of source `id` cleared if the source is edge-triggered: the claim of an interrupt (R481). -/
def claim (e : Eclic) (id : Nat) : Eclic :=
  { e with sources := updateSource (fun src => if src.edge then { src with ip := false } else src) id e.sources }

/-! ## Sampling -/

/-- A source after one sampling of its input (R481). -/
def sampleSource (input : Bool) (src : Source) : Source :=
  { src with
    ip :=
      if src.edge then
        if src.falling then src.ip || (src.prev && !input) else src.ip || (!src.prev && input)
      else input
    prev := input }

/-- All sources from id `i` on after one sampling. -/
def sampleSources (input : Nat → Bool) : Nat → List Source → List Source
  | _, [] => []
  | i, src :: rest => sampleSource (input i) src :: sampleSources input (i + 1) rest

/-- The previous sample of source `id`; false if there is no such source. -/
def prevSample (e : Eclic) (id : Nat) : Bool :=
  match e.sources[id]? with
  | some src => src.prev
  | none => false

end Sys2Proof.Machine
end

