-- ==== Sys2Proof/Machine/CsrFields.lean ====
section
/-! DEFINITION. The CSRs as 32-bit words: how the fields of State are laid out in each, and what a write to each
keeps (11_csr.md). -/

namespace Sys2Proof.Machine

/-- Bit 0 cleared: mepc, msaveepc, jump targets (11_csr.md R69, R86). -/
def clearBit0 (v : Word) : Word := v &&& 0xFFFFFFFE#32

/-- Bits 1:0 cleared: trap entries (11_csr.md R65, R91). -/
def clearLow2 (v : Word) : Word := v &&& 0xFFFFFFFC#32

/-- The code of a privilege mode (60_exceptions.md R400). -/
def privCode : Priv → BitVec 2
  | .user => 0#2
  | .machine => 3#2

/-- The code of a sub-mode (11_csr.md R83). -/
def subModeCode : SubMode → BitVec 2
  | .normal => 0#2
  | .interrupt => 1#2
  | .exception => 2#2
  | .nmi => 3#2

/-- The sub-mode of a code (11_csr.md R83). -/
def subModeOf (v : BitVec 2) : SubMode :=
  if v = 0#2 then .normal else if v = 1#2 then .interrupt else if v = 2#2 then .exception else .nmi

/-- The privilege code that MPP holds after `v` is put into it: `v` if it is a mode of the core, else a legal one that
`freeM` chooses (11_csr.md R57, 93 U5; log 14). -/
def legalMpp (c : Config) (freeM : Bool) (v : BitVec 2) : BitVec 2 :=
  if v = 3#2 then 3#2
  else if !c.hasUmode then 3#2
  else if v = 0#2 then 0#2
  else if freeM then 3#2
  else 0#2

/-- The mode that `mret` enters when MPP holds `v` (60_exceptions.md R440; log 14). -/
def privOfMpp (c : Config) (freeM : Bool) (v : BitVec 2) : Priv :=
  if legalMpp c freeM v = 3#2 then .machine else .user

/-! ## mstatus (R55 to R64) -/

/-- mstatus as read; `bit17` is the irrelevant bit (R61). -/
def mstatusWord (r : CsrFile) (bit17 : Bool) : Word :=
  BitVec.ofBool (r.xs == 3#2) ++ 0#13 ++ BitVec.ofBool bit17 ++ r.xs ++ 0#2 ++ r.mpp ++ 0#3 ++ BitVec.ofBool r.mpie
    ++ 0#3 ++ BitVec.ofBool r.mie ++ 0#3

/-- A write to mstatus. -/
def writeMstatus (c : Config) (freeM : Bool) (r : CsrFile) (v : Word) : CsrFile :=
  { r with
    mie := v.getLsbD 3
    mpie := v.getLsbD 7
    mpp := legalMpp c freeM (v.extractLsb' 11 2)
    xs := v.extractLsb' 15 2 }

/-! ## mcause and the saved causes (R70, R87) -/

/-- mcause as read, with the mirrors of MPP and MPIE. -/
def mcauseWord (r : CsrFile) : Word :=
  BitVec.ofBool r.causeInterrupt ++ BitVec.ofBool r.causeMinhv ++ r.mpp ++ BitVec.ofBool r.mpie ++ 0#3
    ++ r.causeMpil ++ 0#4 ++ r.causeExccode

/-- The fields of mcause that are not mirrors, from a word in its layout (60_exceptions.md R441). -/
def loadCause (r : CsrFile) (v : Word) : CsrFile :=
  { r with
    causeInterrupt := v.getLsbD 31
    causeMinhv := v.getLsbD 30
    causeMpil := v.extractLsb' 16 8
    causeExccode := v.extractLsb' 0 12 }

/-- A write to mcause: it changes mstatus.MPP and MPIE through the mirror (R57). -/
def writeMcause (c : Config) (freeM : Bool) (r : CsrFile) (v : Word) : CsrFile :=
  { loadCause r v with
    mpp := legalMpp c freeM (v.extractLsb' 28 2)
    mpie := v.getLsbD 27 }

/-- The reserved fields of the layout of mcause cleared (R70, R87). -/
def causeLayout (v : Word) : Word := v &&& 0xF8FF0FFF#32

/-! ## The other registers -/

/-- msubm as read (R83). -/
def msubmWord (r : CsrFile) : Word := 0#22 ++ subModeCode r.ptyp ++ subModeCode r.typ ++ 0#6

/-- A write to msubm (R83). -/
def writeMsubm (r : CsrFile) (v : Word) : CsrFile :=
  { r with ptyp := subModeOf (v.extractLsb' 8 2), typ := subModeOf (v.extractLsb' 6 2) }

/-- msavestatus as read (R85). -/
def msavestatusWord (r : CsrFile) : Word :=
  0#16 ++ subModeCode r.save2.ptyp ++ 0#3 ++ r.save2.mpp ++ BitVec.ofBool r.save2.mpie
    ++ subModeCode r.save1.ptyp ++ 0#3 ++ r.save1.mpp ++ BitVec.ofBool r.save1.mpie

/-- A write to msavestatus (R85). -/
def writeMsavestatus (r : CsrFile) (v : Word) : CsrFile :=
  { r with
    save1 := { r.save1 with
      ptyp := subModeOf (v.extractLsb' 6 2), mpp := v.extractLsb' 1 2, mpie := v.getLsbD 0 }
    save2 := { r.save2 with
      ptyp := subModeOf (v.extractLsb' 14 2), mpp := v.extractLsb' 9 2, mpie := v.getLsbD 8 } }

/-- mintstatus as read (R73). -/
def mintstatusWord (r : CsrFile) : Word := r.mil ++ 0#16 ++ r.uil

/-- mmisc_ctl as read (R84). -/
def mmiscCtlWord (r : CsrFile) : Word := 0#22 ++ BitVec.ofBool r.nmiCauseFff ++ 0#9

/-- mcounteren as read (R66). -/
def mcounterenWord (r : CsrFile) : Word :=
  0#29 ++ BitVec.ofBool r.counterenIr ++ BitVec.ofBool r.counterenTm ++ BitVec.ofBool r.counterenCy

/-- mcountinhibit as read (R81). -/
def mcountinhibitWord (r : CsrFile) : Word := 0#29 ++ BitVec.ofBool r.inhibitIr ++ 0#1 ++ BitVec.ofBool r.inhibitCy

/-- misa (R58); bit 23 is open (log 25). -/
def misaWord (c : Config) : Word :=
  0x40001105#32 ||| (bitWord c.hasUmode <<< 20) ||| (bitWord c.misaX <<< 23)

/-- The number of low bits of mtvt that read 0 (R67). -/
def mtvtAlignBits (n : Nat) : Nat :=
  if n ≤ 16 then 6
  else if n ≤ 32 then 7
  else if n ≤ 64 then 8
  else if n ≤ 128 then 9
  else if n ≤ 256 then 10
  else if n ≤ 512 then 11
  else if n ≤ 1024 then 12
  else if n ≤ 2048 then 13
  else 14

/-- A value as mtvt keeps it (R67). -/
def mtvtLayout (c : Config) (v : Word) : Word := v &&& (0xFFFFFFFF#32 <<< mtvtAlignBits c.numInterrupt)

/-- A value as mtvt2 keeps it: bit 1 is constant 0 (R91). -/
def mtvt2Layout (v : Word) : Word := v &&& 0xFFFFFFFD#32

/-- mnvec: the address the NMI jumps to, as read (R82). -/
def mnvecWord (c : Config) (r : CsrFile) : Word := if r.nmiCauseFff then r.mtvec else c.resetVector

/-- mtvec selects the ECLIC interrupt mode (R65). -/
def eclicMode (r : CsrFile) : Bool := r.mtvec.extractLsb' 0 6 == 0b000011#6

/-- Where exceptions enter (R65). -/
def exceptionEntry (r : CsrFile) : Word := clearLow2 r.mtvec

/-- Where the NMI enters (60_exceptions.md R432). -/
def nmiEntryAddress (c : Config) (r : CsrFile) : Word :=
  if r.nmiCauseFff then clearLow2 r.mtvec else c.resetVector

/-- Where non-vectored interrupts enter (60_exceptions.md R437). -/
def interruptEntryAddress (r : CsrFile) : Word :=
  if r.mtvt2.getLsbD 0 then clearLow2 r.mtvt2 else clearLow2 r.mtvec

/-- The vector table entry of source `id` (60_exceptions.md R434). -/
def vectorEntry (r : CsrFile) (id : Nat) : Word := r.mtvt + BitVec.ofNat 32 (4 * id)

end Sys2Proof.Machine
end

