-- ==== Sys2Proof/Machine/Ops.lean ====
section
/-! DEFINITION. The shared operations: registers, retiring an instruction, data accesses, taking an exception, an NMI or
an interrupt, and returning from a trap. -/

namespace Sys2Proof.Machine

/-! ## Registers (10_state.md R20, R22) -/

/-- x[r]: x0 reads 0 (R20). -/
def getReg (s : State) (r : Reg) : Word := if r = 0#5 then 0#32 else s.regs[r.toNat]'r.isLt

/-- x[r] <- v: a write to x0 is discarded (R20). -/
def setReg (s : State) (r : Reg) (v : Word) : State :=
  if r = 0#5 then s else { s with regs := s.regs.set r.toNat v r.isLt }

/-- The count of retired instructions after one more (11_csr.md R77, R81). -/
def countRetired (s : State) : BitVec 64 := if s.csr.inhibitIr then s.minstret else s.minstret + 1

/-- The instruction completes and execution goes on at `target` (R22). -/
def retireTo (target : Word) (s : State) : State := { s with pc := target, minstret := countRetired s }

/-- The instruction, `len` bytes long, completes and execution goes on after it (R22). -/
def retire (len : Word) (s : State) : State := retireTo (s.pc + len) s

/-- x[rd] <- v, and on to the next instruction. -/
def writeResult (len : Word) (rd : Reg) (v : Word) (s : State) : Out := .next (retire len (setReg s rd v))

/-- x[rd] <- the address of the next instruction, and on at `target` (41_rv32i_control.md R240, R241). -/
def jumpAndLink (len : Word) (rd : Reg) (target : Word) (s : State) : Out :=
  .next (retireTo target (setReg s rd (s.pc + len)))

/-- On at pc + offset if `taken`, else after the branch (41_rv32i_control.md section 2). -/
def branchIf (len : Word) (taken : Bool) (offset : Word) (s : State) : Out :=
  .next (retireTo (if taken then s.pc + offset else s.pc + len) s)

/-! ## Taking an exception, and returning (60_exceptions.md) -/

/-- The push of the NMI/exception state stack (R425). -/
def pushState (r : CsrFile) : CsrFile :=
  { r with
    save2 := r.save1
    save1 := { epc := r.mepc, cause := mcauseWord r, mpie := r.mpie, mpp := r.mpp, ptyp := r.ptyp } }

/-- Exception entry with the pc to save, the code and the value for mtval (R423, R424). -/
def takeException (epc : Word) (code : BitVec 12) (tval : Word) (s : State) : State :=
  { s with
    csr := { pushState s.csr with
      mepc := epc
      causeInterrupt := false
      causeExccode := code
      mtval := tval
      mpie := s.csr.mie
      mie := false
      mpp := privCode s.priv
      ptyp := s.csr.typ
      typ := .exception }
    priv := .machine
    reservation := none
    pc := exceptionEntry s.csr }

/-- The instruction at pc raises an exception (R410, R423). -/
def raise (code : BitVec 12) (tval : Word) (s : State) : Out := .next (takeException s.pc code tval s)

/-- The exception codes that are raised (R420). -/
def codeInstrAccessFault : BitVec 12 := 1#12
def codeIllegalInstruction : BitVec 12 := 2#12
def codeBreakpoint : BitVec 12 := 3#12
def codeLoadMisaligned : BitVec 12 := 4#12
def codeStoreMisaligned : BitVec 12 := 6#12
def codeEcallFromU : BitVec 12 := 8#12
def codeEcallFromM : BitVec 12 := 11#12

/-- IllegalInstruction with the bits of the instruction (30_encoding.md R188). -/
def raiseIllegal (i : Instr) (s : State) : Out := raise codeIllegalInstruction (encodedWord i) s

/-- NMI entry (R432). -/
def enterNmi (s : State) : State :=
  { s with
    nmiPending := false
    csr := { pushState s.csr with
      mepc := s.pc
      causeInterrupt := false
      causeExccode := if s.csr.nmiCauseFff then 0xFFF#12 else 0x001#12
      mpie := s.csr.mie
      mie := false
      mpp := privCode s.priv
      ptyp := s.csr.typ
      typ := .nmi }
    priv := .machine
    reservation := none
    sleeping := false
    pc := nmiEntryAddress s.cfg s.csr }

/-- The pop of the NMI/exception state stack, level 2 kept (R441); `freeM` as in `legalMpp`. -/
def popState (c : Config) (freeM : Bool) (r : CsrFile) : CsrFile :=
  { loadCause r r.save1.cause with
    mepc := r.save1.epc
    mpie := r.save1.mpie
    mpp := legalMpp c freeM r.save1.mpp
    ptyp := r.save1.ptyp
    save1 := r.save2 }

/-- What a return from an interrupt does instead (R442). -/
def leaveInterrupt (c : Config) (r : CsrFile) : CsrFile :=
  { r with mil := r.causeMpil, mpie := true, mpp := if c.hasUmode then 0#2 else 3#2 }

/-- The CSRs after `mret` (R440 to R442): every right-hand side is the old value. -/
def returnCsr (c : Config) (freeM : Bool) (r : CsrFile) : CsrFile :=
  { (if r.causeInterrupt then leaveInterrupt c r else popState c freeM r) with
    mie := r.mpie
    typ := r.ptyp }

/-- `mret` in Machine Mode (R440 to R442); the count of retired instructions is `retireTo`'s. -/
def returnFromTrap (s : State) : State :=
  retireTo s.csr.mepc
    { s with
      priv := privOfMpp s.cfg (Config.freeModeIsM s.steps 1) s.csr.mpp
      csr := returnCsr s.cfg (Config.freeModeIsM s.steps 0) s.csr
      reservation := none }

/-! ## Data accesses (20_memory.md R132 to R139) -/

/-- The address lies in a device window of the core. -/
def isDevice (c : Config) (a : Word) : Bool :=
  match placeOf c a with
  | .memory => false
  | _ => true

/-- What answers a read of `n` bytes at `a`; none for an access error (R132, R139). -/
def dataAnswer (s : State) (a : Word) (n : Nat) : Option Word :=
  match placeOf s.cfg a with
  | .timer offset => some (s.timer.read offset)
  | .eclic offset => some (eclicRead s.cfg s.eclic offset n)
  | .memory => if readable s.cfg a.toNat n then some (Memory.readLE s.mem a.toNat n) else none

/-- An access of a size that the place does not support (61 R461). -/
def sizeRefused (c : Config) (a : Word) (n : Nat) : Bool :=
  match placeOf c a with
  | .timer _ => n != 4
  | _ => false

/-- A data access error: it waits to be reported to ECLIC source 17 (R139, 61 R472; log 12). -/
def reportError (s : State) : State := { s with errorReports := s.errorReports + 1 }

/-- What a read of `n` bytes extended by `ext` gives, and the state after it: where the platform signals an error the
whole extended value is free (R139; log 9). -/
def readExtended (ext : Word → Word) (s : State) (a : Word) (n : Nat) : Word × State :=
  match dataAnswer s a n with
  | some v => (ext v, s)
  | none => (Config.freeLoad s.steps, reportError s)

/-- A read that takes the value as it is. -/
def readData (s : State) (a : Word) (n : Nat) : Word × State := readExtended id s a n

/-- Bytes `k` to `k + n - 1` of what a failing store leaves (R139; log 10). -/
def freeBytes (steps : Nat) : Nat → Nat → List Byte
  | _, 0 => []
  | k, n + 1 => Config.freeStore steps k :: freeBytes steps (k + 1) n

/-- Bytes stored where `p` holds, and noted in the store log (R133, R145). -/
def storeBytes (p : Nat → Bool) (a : Word) (bytes : List Byte) (s : State) : State :=
  { s with
    mem := Memory.writeWhere p s.mem a.toNat bytes
    storeLog := Memory.cellsAt s.mem a.toNat bytes.length :: s.storeLog }

/-- A store of the `n` low bytes of `v` to the platform's memory (R133, R139). -/
def storeMemory (a : Word) (n : Nat) (v : Word) (s : State) : State :=
  if writable s.cfg a.toNat n then storeBytes (isRam s.cfg) a (wordBytes v n) s
  else reportError (storeBytes (isMapped s.cfg) a (freeBytes s.steps 0 n) s)

/-- The state after a write of the `n` low bytes of `v` (R133). -/
def writeData (a : Word) (n : Nat) (v : Word) (s : State) : State :=
  match placeOf s.cfg a with
  | .timer offset => { s with timer := s.timer.write offset v }
  | .eclic offset => { s with eclic := eclicWrite s.cfg s.eclic offset (wordBytes v n) }
  | .memory => storeMemory a n v s

/-- `a` is a multiple of `n` (R135). -/
def aligned (a : Word) (n : Nat) : Bool := a.toNat % n == 0

/-- A load of `n` bytes from `a`, the value extended by `ext` (42 R255). -/
def loadOp (len : Word) (n : Nat) (ext : Word → Word) (rd : Reg) (a : Word) (s : State) : Out :=
  if !aligned a n then raise codeLoadMisaligned a s
  else if sizeRefused s.cfg a n then .refused .timerAccessSize
  else .next (retire len (setReg (readExtended ext s a n).2 rd (readExtended ext s a n).1))

/-- A store of the `n` low bytes of `v` to `a` (42 R255). -/
def storeOp (len : Word) (n : Nat) (v : Word) (a : Word) (s : State) : Out :=
  if !aligned a n then raise codeStoreMisaligned a s
  else if sizeRefused s.cfg a n then .refused .timerAccessSize
  else .next (retire len (writeData a n v s))

/-- lr.w (45 R323). -/
def loadReserve (rd : Reg) (a : Word) (s : State) : Out :=
  if !aligned a 4 then raise codeLoadMisaligned a s
  else if isDevice s.cfg a then .refused .atomicOnDevice
  else .next (retire 4 { setReg (readData s a 4).2 rd (readData s a 4).1 with reservation := some a })

/-- sc.w (45 R324). -/
def storeConditional (rd : Reg) (v : Word) (a : Word) (s : State) : Out :=
  if !aligned a 4 then raise codeStoreMisaligned a s
  else if isDevice s.cfg a then .refused .atomicOnDevice
  else if s.reservation = some a then
    .next (retire 4 { setReg (storeMemory a 4 v s) rd 0#32 with reservation := none })
  else .next (retire 4 { setReg s rd 1#32 with reservation := none })

/-- amoOP.w: `op` combines the old word with x[rs2] (45 R327). An access error on either half is reported once, and both
the value returned and the bytes left are then free (20_memory.md R139; log 9, log 10). -/
def atomicOp (op : Word → Word → Word) (rd : Reg) (v : Word) (a : Word) (s : State) : Out :=
  if !aligned a 4 then raise codeStoreMisaligned a s
  else if isDevice s.cfg a then .refused .atomicOnDevice
  else if readable s.cfg a.toNat 4 && writable s.cfg a.toNat 4 then
    .next (retire 4 (setReg
      (storeMemory a 4 (op (Memory.readLE s.mem a.toNat 4) v) s) rd (Memory.readLE s.mem a.toNat 4)))
  else
    .next (retire 4 (setReg
      (reportError (storeBytes (isMapped s.cfg) a (freeBytes s.steps 0 4) s)) rd (Config.freeLoad s.steps)))

/-! ## Taking an interrupt (60_exceptions.md R435 to R437) -/

/-- The updates of interrupt entry that both kinds share (R435). -/
def interruptEntered (w : Candidate) (s : State) : State :=
  { s with
    csr := { s.csr with
      mepc := s.pc
      causeInterrupt := true
      causeExccode := BitVec.ofNat 12 w.id
      causeMpil := s.csr.mil
      mil := w.level
      mpie := s.csr.mie
      mie := false
      mpp := privCode s.priv
      ptyp := s.csr.typ
      typ := .interrupt }
    priv := .machine
    reservation := none
    sleeping := false }

/-- The state with mcause.MINHV set to `b` (R436). -/
def setMinhv (b : Bool) (s : State) : State := { s with csr := { s.csr with causeMinhv := b } }

/-- The vectored continuation: the table read and the jump, or the access fault (R436). That the entry of a reserved source
is read like any other is the model's choice (DEDUCED, log 41). -/
def vectoredJump (w : Candidate) (s : State) : State :=
  match dataAnswer s (vectorEntry s.csr w.id) 4 with
  | some t => { setMinhv false s with eclic := claim s.eclic w.id, pc := clearBit0 t }
  | none =>
    takeException (vectorEntry s.csr w.id) codeInstrAccessFault (vectorEntry s.csr w.id) (setMinhv true s)

/-- Interrupt entry for the winner `w` (R435). -/
def enterInterrupt (w : Candidate) (s : State) : State :=
  if w.shv then vectoredJump w (interruptEntered w s)
  else { interruptEntered w s with pc := interruptEntryAddress s.csr }

end Sys2Proof.Machine
end

