-- ==== Sys2Proof/Machine/Boundary.lean ====
section
/-! DEFINITION. The instruction boundary: what the hart samples there, when it wakes, which trap it takes, and the fetch
(60_exceptions.md R410, R430 to R435, 61_timer_eclic_lowpower.md R481, R500 to R506, 20_memory.md R134, R145). -/

namespace Sys2Proof.Machine

/-! ## The inputs -/

/-- What this boundary sees of the outside, and what is left for the coming ones (log 7). -/
def nextSample (s : State) : EnvSample :=
  match s.env with
  | [] => s.envRest
  | e :: _ => e

def laterSamples (s : State) : List EnvSample :=
  match s.env with
  | [] => []
  | _ :: rest => rest

/-- The CSR fields after a reset event: those of CsrFile.reset, but for the fields of mcause that are its own, which a
reset does not write (70 R600); its mirrors of MPP and MPIE follow mstatus (10_state.md R41). -/
def resetCsr (r : CsrFile) : CsrFile :=
  { CsrFile.reset with
    causeInterrupt := r.causeInterrupt
    causeMinhv := r.causeMinhv
    causeMpil := r.causeMpil
    causeExccode := r.causeExccode }

/-- A reset: the registers as after reset, memory and the outside as they are (70 R600 to R602; log 27). -/
def resetEvent (s : State) : State :=
  { State.resetWith s.cfg with
    csr := resetCsr s.csr
    mem := s.mem
    storeLog := s.storeLog
    txPulses := s.txPulses
    env := laterSamples s
    envRest := s.envRest
    steps := s.steps + 1 }

/-- A data access error is reported at this boundary: the pulse on source 17 begins (61 R472; log 12). -/
def errorPulse (e : EnvSample) (s : State) : Bool :=
  e.deliverError && decide (0 < s.errorReports) && !prevSample s.eclic 17

/-- The input of source `i` (61 R471). -/
def sourceInput (e : EnvSample) (s : State) (i : Nat) : Bool :=
  if i = 3 then s.timer.msip
  else if i = 7 then s.timer.irq
  else if i = 17 then errorPulse e s
  else decide (19 ≤ i) && e.high.contains i

/-- The counters advance: mtime by the ticks, mcycle by the cycles unless inhibited (61 R462, 11_csr.md R76, R81). -/
def advanceTime (e : EnvSample) (s : State) : State :=
  { s with
    timer := s.timer.tick e.ticks
    mcycle := if s.csr.inhibitCy then s.mcycle else s.mcycle + BitVec.ofNat 64 e.cycles }

/-- The source inputs are sampled (61 R481), and the error that this reports is no longer outstanding. -/
def sampleEclic (e : EnvSample) (s : State) : State :=
  { s with
    eclic := { s.eclic with sources := sampleSources (sourceInput e s) 0 s.eclic.sources }
    errorReports := if errorPulse e s then s.errorReports - 1 else s.errorReports }

/-- The nmi edge and rx_evt are sampled (60 R430, 10_state.md R35). -/
def samplePins (e : EnvSample) (s : State) : State :=
  { s with
    nmiPending := s.nmiPending || (e.nmi && !s.nmiPrev)
    nmiPrev := e.nmi
    rxEvt := e.rxEvt }

/-- The first part of a step: sample all inputs (60 R410). -/
def sample (s : State) : State :=
  { sampleEclic (nextSample s) (advanceTime (nextSample s) (samplePins (nextSample s) s)) with
    env := laterSamples s
    steps := s.steps + 1 }

/-! ## Traps at a boundary, and waking -/

/-- The NMI is taken (60 R431). -/
def nmiTaken (s : State) : Bool := s.nmiPending && s.csr.typ != .nmi

/-- Interrupts are enabled: mstatus.MIE, or User Mode (60 R435, decision D7). -/
def interruptsEnabled (s : State) : Bool := s.csr.mie || s.priv == .user

/-- The interrupt whose entry condition holds, whatever mtvec.MODE (60 R435). -/
def takeableInterrupt (s : State) : Option Candidate :=
  match eclicRequest s.eclic with
  | some w => if s.csr.mil.toNat < w.level.toNat ∧ interruptsEnabled s = true then some w else none
  | none => none

/-- With interrupts off, what wakes the hart to go on after the wfi: the ECLIC's request if WFE is 0, the event if it is
1 (61 R504 to R506). -/
def wakesToContinue (s : State) : Bool :=
  !interruptsEnabled s && (if s.csr.wfe then s.rxEvt else (eclicRequest s.eclic).isSome)

/-- A wake condition holds (61 R506). -/
def wakes (s : State) : Bool := nmiTaken s || (takeableInterrupt s).isSome || wakesToContinue s

/-! ## The fetch -/

/-- Undo the `k` newest stores of a log (20 R145). -/
def undoStores : Nat → List (List Host.Cell) → Memory → Memory
  | 0, _, m => m
  | _ + 1, [], m => m
  | k + 1, cells :: log, m => undoStores k log (Memory.restore m cells)

/-- A store since the last fence.i touched the parcel at `a`. -/
def storedSince (log : List (List Host.Cell)) (a : Nat) : Bool :=
  log.any (fun cells => cells.any (fun cell => cell.1 == a || cell.1 == a + 1))

/-- What the fetch sees of parcel number `j` at `a`: memory, or, where stores since the last fence.i touched it, memory
as it was before a free number of them (20 R145; log 13). -/
def parcelSeen (s : State) (j : Nat) (a : Nat) : BitVec 16 :=
  if storedSince s.storeLog a then
    Memory.readParcel (undoStores (Config.freeFetchAge s.steps j) s.storeLog s.mem) a
  else Memory.readParcel s.mem a

/-- The outcome of reading instruction bytes. -/
inductive Fetched (α : Type) where
  | ok (v : α)
  /-- InstrAccessFault with this mtval (20 R134) -/
  | accessFault (tval : Word)
  /-- an address in the TIMER window (61 R461) -/
  | timerWindow
deriving DecidableEq, Repr

/-- The read of parcel number `j` at `a` (20 R134): memory, or the two byte registers of the ECLIC window as they are now
(61 R474, 20 R140; log 23). -/
def fetchParcel (s : State) (j : Nat) (a : Word) : Fetched (BitVec 16) :=
  match placeOf s.cfg a with
  | .timer _ => .timerWindow
  | .eclic offset => .ok (eclicReadByte s.cfg s.eclic (offset + 1) ++ eclicReadByte s.cfg s.eclic offset)
  | .memory => if readable s.cfg a.toNat 2 then .ok (parcelSeen s j a.toNat) else .accessFault a

/-- The fetch at pc (20 R134). -/
def fetch (s : State) : Fetched Encoding :=
  match fetchParcel s 0 s.pc with
  | .ok low =>
    if isHalf low then .ok (.half low)
    else
      match fetchParcel s 1 (s.pc + 2) with
      | .ok high => .ok (.full (high ++ low))
      | .accessFault t => .accessFault t
      | .timerWindow => .timerWindow
  | .accessFault t => .accessFault t
  | .timerWindow => .timerWindow

/-- The instruction at pc, or the outcome of the step when there is none: the exceptions 1 and 2 (20 R134,
30_encoding.md R188; log 26). -/
def nextInstr (s : State) : Out ⊕ Instr :=
  match fetch s with
  | .timerWindow => .inl (.refused .fetchFromTimer)
  | .accessFault t => .inl (raise codeInstrAccessFault t s)
  | .ok e =>
    match decodeEncoding e with
    | .ok i => .inr i
    | .error _ => .inl (raise codeIllegalInstruction e.toWord s)

/-! ## The outputs -/

/-- The output core_wfi_mode (61 R501). -/
def coreWfiMode (s : State) : Bool := s.sleeping

/-- The output core_sleep_value (61 R501). -/
def coreSleepValue (s : State) : Bool := s.sleeping && s.csr.sleepvalue

/-! ## Loading an instruction from outside -/

/-- Memory with the parcel `p` at the address `a`. -/
def placeParcel (p : BitVec 16) (a : Word) (m : Memory) : Memory :=
  Memory.write (Memory.write m a.toNat (p.extractLsb' 0 8)) (a + 1).toNat (p.extractLsb' 8 8)

/-- The 32 bits of `w` as two parcels at pc (70 R602; log 6). -/
def placeWord (w : Word) (s : State) : State :=
  { s with
    mem := placeParcel (w.extractLsb' 16 16) (s.pc + 2) (placeParcel (w.extractLsb' 0 16) s.pc s.mem)
    storeLog := [] }

end Sys2Proof.Machine
end

