-- ==== Sys2Proof/Machine/Operands.lean ====
section
/-! DEFINITION. The operand forms: immediates extended to 32 bits, the registers of the compressed formats, effective
addresses, and how a loaded value is extended. -/

namespace Sys2Proof.Machine

/-- sext_N of an immediate (00_scope.md R10). -/
def sext {n : Nat} (v : BitVec n) : Word := v.signExtend 32

/-- zext_N of an immediate (00_scope.md R10). -/
def zext {n : Nat} (v : BitVec n) : Word := v.setWidth 32

/-- The value of a U-immediate: the 20 bits in bits 31:12 (30_encoding.md R178). -/
def upper (imm : BitVec 20) : Word := imm ++ 0#12

/-- The register of a 3-bit field, x8 to x15 (30_encoding.md R184). -/
def cReg (r : CReg) : Reg := 0b01#2 ++ r

/-- The stack pointer and the link register of the compressed formats (46_c_compressed.md). -/
def regSp : Reg := 2#5
def regRa : Reg := 1#5

/-- x[rs1] + sext(imm), the effective address of loads and stores and the target sum of jalr (42, 41 R241). -/
def baseOffset (s : State) (rs1 : Reg) (imm : BitVec 12) : Word := getReg s rs1 + sext imm

/-- x[rs1] + uimm, the effective address of the compressed loads and stores (46 R342, R361). -/
def baseScaled {n : Nat} (s : State) (rs1 : Reg) (uimm : BitVec n) : Word := getReg s rs1 + zext uimm

/-- pc + sext(offset), the target of jumps and branches (41). -/
def pcOffset {n : Nat} (s : State) (offset : BitVec n) : Word := s.pc + sext offset

/-- How the loads extend what they read (42 R258 to R262). -/
def signByte (v : Word) : Word := sext (v.extractLsb' 0 8)
def zeroByte (v : Word) : Word := zext (v.extractLsb' 0 8)
def signHalf (v : Word) : Word := sext (v.extractLsb' 0 16)
def zeroHalf (v : Word) : Word := zext (v.extractLsb' 0 16)
def wholeWord (v : Word) : Word := v

end Sys2Proof.Machine
end

