-- ==== Sys2Proof/Machine/Flags.lean ====
section
/-! DEFINITION. The core has no flags (10_state.md R23): comparisons give a register value or decide a branch. Beside them,
the arithmetic that more than one instruction uses: shifts, products, quotients, minima. -/

namespace Sys2Proof.Machine

/-- The comparisons of branches, slt and the AMOs (41 R242 to R247). -/
def lessSigned (a b : Word) : Bool := decide (a.toInt < b.toInt)
def lessUnsigned (a b : Word) : Bool := decide (a.toNat < b.toNat)

/-- The result of slt and its relatives: 1 or 0 (40 R214, R215, R225, R226). -/
def setIf (b : Bool) : Word := bitWord b

/-- Shifts by 0 to 31 (00_scope.md R10). -/
def shiftLeft (v : Word) (n : BitVec 5) : Word := v <<< n.toNat
def shiftRightLogical (v : Word) (n : BitVec 5) : Word := v >>> n.toNat
def shiftRightArith (v : Word) (n : BitVec 5) : Word := v.sshiftRight n.toNat

/-- The shift amount in a register: its low five bits (40 R224, R228, R229). -/
def shiftAmount (v : Word) : BitVec 5 := v.extractLsb' 0 5

/-- The high word of an exact product (44 R311 to R313). -/
def highProduct (p : Int) : Word := BitVec.ofInt 32 (p / 2 ^ 32)

/-- div: toward zero, with the results of R317 for a zero divisor and for overflow (44 R314). -/
def divSigned (a b : Word) : Word :=
  if b = 0#32 then 0xFFFFFFFF#32
  else if a = 0x80000000#32 ∧ b = 0xFFFFFFFF#32 then 0x80000000#32
  else BitVec.ofInt 32 (Int.tdiv a.toInt b.toInt)

/-- rem: the sign of the dividend (44 R316, R317). -/
def remSigned (a b : Word) : Word :=
  if b = 0#32 then a
  else if a = 0x80000000#32 ∧ b = 0xFFFFFFFF#32 then 0#32
  else BitVec.ofInt 32 (a.toInt - b.toInt * Int.tdiv a.toInt b.toInt)

/-- divu: rounding down (44 R315, R317). -/
def divUnsigned (a b : Word) : Word :=
  if b = 0#32 then 0xFFFFFFFF#32 else BitVec.ofNat 32 (a.toNat / b.toNat)

/-- remu (44 R319, R317). -/
def remUnsigned (a b : Word) : Word :=
  if b = 0#32 then a else BitVec.ofNat 32 (a.toNat % b.toNat)

end Sys2Proof.Machine
end

