-- ==== Sys2Proof/Machine/Atomic.lean ====
section
/-! DEFINITION. The A extension (45_a_atomic.md). -/

namespace Sys2Proof.Machine

/-- The combinations OP(t, v) of the AMOs: `t` the old word, `v` the register (45 R329 to R337). -/
def amoSwap (_t v : Word) : Word := v
def amoAdd (t v : Word) : Word := t + v
def amoXor (t v : Word) : Word := t ^^^ v
def amoAnd (t v : Word) : Word := t &&& v
def amoOr (t v : Word) : Word := t ||| v
def amoMin (t v : Word) : Word := if lessSigned t v then t else v
def amoMax (t v : Word) : Word := if lessSigned v t then t else v
def amoMinu (t v : Word) : Word := if lessUnsigned t v then t else v
def amoMaxu (t v : Word) : Word := if lessUnsigned v t then t else v

/-- `lr.w`, 45 R323; aq and rl change nothing (R338). -/
def execLrW (rd rs1 : Reg) (_aq _rl : BitVec 1) (s : State) : Out := loadReserve rd (getReg s rs1) s

/-- `sc.w`, 45 R324. -/
def execScW (rd rs1 rs2 : Reg) (_aq _rl : BitVec 1) (s : State) : Out :=
  storeConditional rd (getReg s rs2) (getReg s rs1) s

/-- `amoswap.w`, 45 R329. -/
def execAmoswapW (rd rs1 rs2 : Reg) (_aq _rl : BitVec 1) (s : State) : Out :=
  atomicOp amoSwap rd (getReg s rs2) (getReg s rs1) s

/-- `amoadd.w`, 45 R330. -/
def execAmoaddW (rd rs1 rs2 : Reg) (_aq _rl : BitVec 1) (s : State) : Out :=
  atomicOp amoAdd rd (getReg s rs2) (getReg s rs1) s

/-- `amoxor.w`, 45 R331. -/
def execAmoxorW (rd rs1 rs2 : Reg) (_aq _rl : BitVec 1) (s : State) : Out :=
  atomicOp amoXor rd (getReg s rs2) (getReg s rs1) s

/-- `amoand.w`, 45 R332. -/
def execAmoandW (rd rs1 rs2 : Reg) (_aq _rl : BitVec 1) (s : State) : Out :=
  atomicOp amoAnd rd (getReg s rs2) (getReg s rs1) s

/-- `amoor.w`, 45 R333. -/
def execAmoorW (rd rs1 rs2 : Reg) (_aq _rl : BitVec 1) (s : State) : Out :=
  atomicOp amoOr rd (getReg s rs2) (getReg s rs1) s

/-- `amomin.w`, 45 R334. -/
def execAmominW (rd rs1 rs2 : Reg) (_aq _rl : BitVec 1) (s : State) : Out :=
  atomicOp amoMin rd (getReg s rs2) (getReg s rs1) s

/-- `amomax.w`, 45 R335. -/
def execAmomaxW (rd rs1 rs2 : Reg) (_aq _rl : BitVec 1) (s : State) : Out :=
  atomicOp amoMax rd (getReg s rs2) (getReg s rs1) s

/-- `amominu.w`, 45 R336. -/
def execAmominuW (rd rs1 rs2 : Reg) (_aq _rl : BitVec 1) (s : State) : Out :=
  atomicOp amoMinu rd (getReg s rs2) (getReg s rs1) s

/-- `amomaxu.w`, 45 R337. -/
def execAmomaxuW (rd rs1 rs2 : Reg) (_aq _rl : BitVec 1) (s : State) : Out :=
  atomicOp amoMaxu rd (getReg s rs2) (getReg s rs1) s

end Sys2Proof.Machine
end

