-- ==== Sys2Proof/Machine/Compressed.lean ====
section
/-! DEFINITION. The C extension: each instruction does what its expansion does, with a length of 2 (46_c_compressed.md). -/

namespace Sys2Proof.Machine

/-- `c.addi4spn`, 46 R341. -/
def execCAddi4spn (rd : CReg) (nzuimm : BitVec 10) (s : State) : Out :=
  writeResult 2 (cReg rd) (getReg s regSp + zext nzuimm) s

/-- `c.lw`, 46 R342. -/
def execCLw (rd rs1 : CReg) (uimm : BitVec 7) (s : State) : Out :=
  loadOp 2 4 wholeWord (cReg rd) (baseScaled s (cReg rs1) uimm) s

/-- `c.sw`, 46 R343. -/
def execCSw (rs1 rs2 : CReg) (uimm : BitVec 7) (s : State) : Out :=
  storeOp 2 4 (getReg s (cReg rs2)) (baseScaled s (cReg rs1) uimm) s

/-- `c.nop`, 46 R345. -/
def execCNop (_imm : BitVec 6) (s : State) : Out := .next (retire 2 s)

/-- `c.addi`, 46 R345. -/
def execCAddi (rd : Reg) (imm : BitVec 6) (s : State) : Out := writeResult 2 rd (getReg s rd + sext imm) s

/-- `c.jal`, 46 R346. -/
def execCJal (offset : BitVec 12) (s : State) : Out := jumpAndLink 2 regRa (pcOffset s offset) s

/-- `c.li`, 46 R347. -/
def execCLi (rd : Reg) (imm : BitVec 6) (s : State) : Out := writeResult 2 rd (sext imm) s

/-- `c.addi16sp`, 46 R348. -/
def execCAddi16sp (nzimm : BitVec 10) (s : State) : Out := writeResult 2 regSp (getReg s regSp + sext nzimm) s

/-- `c.lui`, 46 R349. -/
def execCLui (rd : Reg) (nzimm : BitVec 6) (s : State) : Out := writeResult 2 rd (sext nzimm <<< 12) s

/-- `c.srli`, 46 R350. -/
def execCSrli (rd : CReg) (shamt : BitVec 5) (s : State) : Out :=
  writeResult 2 (cReg rd) (shiftRightLogical (getReg s (cReg rd)) shamt) s

/-- `c.srai`, 46 R351. -/
def execCSrai (rd : CReg) (shamt : BitVec 5) (s : State) : Out :=
  writeResult 2 (cReg rd) (shiftRightArith (getReg s (cReg rd)) shamt) s

/-- `c.andi`, 46 R352. -/
def execCAndi (rd : CReg) (imm : BitVec 6) (s : State) : Out :=
  writeResult 2 (cReg rd) (getReg s (cReg rd) &&& sext imm) s

/-- `c.sub`, 46 R353. -/
def execCSub (rd rs2 : CReg) (s : State) : Out := writeResult 2 (cReg rd) (getReg s (cReg rd) - getReg s (cReg rs2)) s

/-- `c.xor`, 46 R354. -/
def execCXor (rd rs2 : CReg) (s : State) : Out :=
  writeResult 2 (cReg rd) (getReg s (cReg rd) ^^^ getReg s (cReg rs2)) s

/-- `c.or`, 46 R355. -/
def execCOr (rd rs2 : CReg) (s : State) : Out :=
  writeResult 2 (cReg rd) (getReg s (cReg rd) ||| getReg s (cReg rs2)) s

/-- `c.and`, 46 R356. -/
def execCAnd (rd rs2 : CReg) (s : State) : Out :=
  writeResult 2 (cReg rd) (getReg s (cReg rd) &&& getReg s (cReg rs2)) s

/-- `c.j`, 46 R357. -/
def execCJ (offset : BitVec 12) (s : State) : Out := .next (retireTo (pcOffset s offset) s)

/-- `c.beqz`, 46 R358. -/
def execCBeqz (rs1 : CReg) (offset : BitVec 9) (s : State) : Out :=
  branchIf 2 (getReg s (cReg rs1) == 0#32) (sext offset) s

/-- `c.bnez`, 46 R359. -/
def execCBnez (rs1 : CReg) (offset : BitVec 9) (s : State) : Out :=
  branchIf 2 (getReg s (cReg rs1) != 0#32) (sext offset) s

/-- `c.slli`, 46 R360. -/
def execCSlli (rd : Reg) (shamt : BitVec 5) (s : State) : Out := writeResult 2 rd (shiftLeft (getReg s rd) shamt) s

/-- `c.lwsp`, 46 R361. -/
def execCLwsp (rd : Reg) (uimm : BitVec 8) (s : State) : Out := loadOp 2 4 wholeWord rd (baseScaled s regSp uimm) s

/-- `c.jr`, 46 R362. -/
def execCJr (rs1 : Reg) (s : State) : Out := .next (retireTo (clearBit0 (getReg s rs1)) s)

/-- `c.mv`, 46 R363. -/
def execCMv (rd rs2 : Reg) (s : State) : Out := writeResult 2 rd (getReg s rs2) s

/-- `c.ebreak`, 46 R364. -/
def execCEbreak (s : State) : Out := raise codeBreakpoint 0#32 s

/-- `c.jalr`, 46 R365: the target is the old x[rs1]. -/
def execCJalr (rs1 : Reg) (s : State) : Out := jumpAndLink 2 regRa (clearBit0 (getReg s rs1)) s

/-- `c.add`, 46 R366. -/
def execCAdd (rd rs2 : Reg) (s : State) : Out := writeResult 2 rd (getReg s rd + getReg s rs2) s

/-- `c.swsp`, 46 R367. -/
def execCSwsp (rs2 : Reg) (uimm : BitVec 8) (s : State) : Out :=
  storeOp 2 4 (getReg s rs2) (baseScaled s regSp uimm) s

end Sys2Proof.Machine
end

