-- ==== Sys2Proof/Machine/Control.lean ====
section
/-! DEFINITION. RV32I jumps and branches (41_rv32i_control.md). -/

namespace Sys2Proof.Machine

/-- `jal`, 41 R240. -/
def execJal (rd : Reg) (offset : BitVec 21) (s : State) : Out := jumpAndLink 4 rd (pcOffset s offset) s

/-- `jalr`, 41 R241: bit 0 of the sum is cleared. -/
def execJalr (rd rs1 : Reg) (imm : BitVec 12) (s : State) : Out :=
  jumpAndLink 4 rd (clearBit0 (baseOffset s rs1 imm)) s

/-- `beq`, 41 R242. -/
def execBeq (rs1 rs2 : Reg) (offset : BitVec 13) (s : State) : Out :=
  branchIf 4 (getReg s rs1 == getReg s rs2) (sext offset) s

/-- `bne`, 41 R243. -/
def execBne (rs1 rs2 : Reg) (offset : BitVec 13) (s : State) : Out :=
  branchIf 4 (getReg s rs1 != getReg s rs2) (sext offset) s

/-- `blt`, 41 R244. -/
def execBlt (rs1 rs2 : Reg) (offset : BitVec 13) (s : State) : Out :=
  branchIf 4 (lessSigned (getReg s rs1) (getReg s rs2)) (sext offset) s

/-- `bge`, 41 R245. -/
def execBge (rs1 rs2 : Reg) (offset : BitVec 13) (s : State) : Out :=
  branchIf 4 (!lessSigned (getReg s rs1) (getReg s rs2)) (sext offset) s

/-- `bltu`, 41 R246. -/
def execBltu (rs1 rs2 : Reg) (offset : BitVec 13) (s : State) : Out :=
  branchIf 4 (lessUnsigned (getReg s rs1) (getReg s rs2)) (sext offset) s

/-- `bgeu`, 41 R247. -/
def execBgeu (rs1 rs2 : Reg) (offset : BitVec 13) (s : State) : Out :=
  branchIf 4 (!lessUnsigned (getReg s rs1) (getReg s rs2)) (sext offset) s

end Sys2Proof.Machine
end

