-- ==== Sys2Proof/Machine/Integer.lean ====
section
/-! DEFINITION. RV32I computational instructions (40_rv32i_integer.md). -/

namespace Sys2Proof.Machine

/-- `lui`, 40 R211. -/
def execLui (rd : Reg) (imm : BitVec 20) (s : State) : Out := writeResult 4 rd (upper imm) s

/-- `auipc`, 40 R212. -/
def execAuipc (rd : Reg) (imm : BitVec 20) (s : State) : Out := writeResult 4 rd (s.pc + upper imm) s

/-- `addi`, 40 R213. -/
def execAddi (rd rs1 : Reg) (imm : BitVec 12) (s : State) : Out := writeResult 4 rd (getReg s rs1 + sext imm) s

/-- `slti`, 40 R214. -/
def execSlti (rd rs1 : Reg) (imm : BitVec 12) (s : State) : Out :=
  writeResult 4 rd (setIf (lessSigned (getReg s rs1) (sext imm))) s

/-- `sltiu`, 40 R215: the immediate is sign-extended, then compared as unsigned. -/
def execSltiu (rd rs1 : Reg) (imm : BitVec 12) (s : State) : Out :=
  writeResult 4 rd (setIf (lessUnsigned (getReg s rs1) (sext imm))) s

/-- `xori`, 40 R216. -/
def execXori (rd rs1 : Reg) (imm : BitVec 12) (s : State) : Out := writeResult 4 rd (getReg s rs1 ^^^ sext imm) s

/-- `ori`, 40 R217. -/
def execOri (rd rs1 : Reg) (imm : BitVec 12) (s : State) : Out := writeResult 4 rd (getReg s rs1 ||| sext imm) s

/-- `andi`, 40 R218. -/
def execAndi (rd rs1 : Reg) (imm : BitVec 12) (s : State) : Out := writeResult 4 rd (getReg s rs1 &&& sext imm) s

/-- `slli`, 40 R219. -/
def execSlli (rd rs1 : Reg) (shamt : BitVec 5) (s : State) : Out :=
  writeResult 4 rd (shiftLeft (getReg s rs1) shamt) s

/-- `srli`, 40 R220. -/
def execSrli (rd rs1 : Reg) (shamt : BitVec 5) (s : State) : Out :=
  writeResult 4 rd (shiftRightLogical (getReg s rs1) shamt) s

/-- `srai`, 40 R221. -/
def execSrai (rd rs1 : Reg) (shamt : BitVec 5) (s : State) : Out :=
  writeResult 4 rd (shiftRightArith (getReg s rs1) shamt) s

/-- `add`, 40 R222. -/
def execAdd (rd rs1 rs2 : Reg) (s : State) : Out := writeResult 4 rd (getReg s rs1 + getReg s rs2) s

/-- `sub`, 40 R223. -/
def execSub (rd rs1 rs2 : Reg) (s : State) : Out := writeResult 4 rd (getReg s rs1 - getReg s rs2) s

/-- `sll`, 40 R224. -/
def execSll (rd rs1 rs2 : Reg) (s : State) : Out :=
  writeResult 4 rd (shiftLeft (getReg s rs1) (shiftAmount (getReg s rs2))) s

/-- `slt`, 40 R225. -/
def execSlt (rd rs1 rs2 : Reg) (s : State) : Out :=
  writeResult 4 rd (setIf (lessSigned (getReg s rs1) (getReg s rs2))) s

/-- `sltu`, 40 R226. -/
def execSltu (rd rs1 rs2 : Reg) (s : State) : Out :=
  writeResult 4 rd (setIf (lessUnsigned (getReg s rs1) (getReg s rs2))) s

/-- `xor`, 40 R227. -/
def execXor (rd rs1 rs2 : Reg) (s : State) : Out := writeResult 4 rd (getReg s rs1 ^^^ getReg s rs2) s

/-- `srl`, 40 R228. -/
def execSrl (rd rs1 rs2 : Reg) (s : State) : Out :=
  writeResult 4 rd (shiftRightLogical (getReg s rs1) (shiftAmount (getReg s rs2))) s

/-- `sra`, 40 R229. -/
def execSra (rd rs1 rs2 : Reg) (s : State) : Out :=
  writeResult 4 rd (shiftRightArith (getReg s rs1) (shiftAmount (getReg s rs2))) s

/-- `or`, 40 R230. -/
def execOr (rd rs1 rs2 : Reg) (s : State) : Out := writeResult 4 rd (getReg s rs1 ||| getReg s rs2) s

/-- `and`, 40 R231. -/
def execAnd (rd rs1 rs2 : Reg) (s : State) : Out := writeResult 4 rd (getReg s rs1 &&& getReg s rs2) s

end Sys2Proof.Machine
end

