-- ==== Sys2Proof/Machine/LoadStore.lean ====
section
/-! DEFINITION. RV32I loads, stores and fences (42_rv32i_loadstore_fence.md). -/

namespace Sys2Proof.Machine

/-- `lb`, 42 R258. -/
def execLb (rd rs1 : Reg) (imm : BitVec 12) (s : State) : Out := loadOp 4 1 signByte rd (baseOffset s rs1 imm) s

/-- `lh`, 42 R259. -/
def execLh (rd rs1 : Reg) (imm : BitVec 12) (s : State) : Out := loadOp 4 2 signHalf rd (baseOffset s rs1 imm) s

/-- `lw`, 42 R260. -/
def execLw (rd rs1 : Reg) (imm : BitVec 12) (s : State) : Out := loadOp 4 4 wholeWord rd (baseOffset s rs1 imm) s

/-- `lbu`, 42 R261. -/
def execLbu (rd rs1 : Reg) (imm : BitVec 12) (s : State) : Out := loadOp 4 1 zeroByte rd (baseOffset s rs1 imm) s

/-- `lhu`, 42 R262. -/
def execLhu (rd rs1 : Reg) (imm : BitVec 12) (s : State) : Out := loadOp 4 2 zeroHalf rd (baseOffset s rs1 imm) s

/-- `sb`, 42 R264. -/
def execSb (rs1 rs2 : Reg) (imm : BitVec 12) (s : State) : Out := storeOp 4 1 (getReg s rs2) (baseOffset s rs1 imm) s

/-- `sh`, 42 R265. -/
def execSh (rs1 rs2 : Reg) (imm : BitVec 12) (s : State) : Out := storeOp 4 2 (getReg s rs2) (baseOffset s rs1 imm) s

/-- `sw`, 42 R266. -/
def execSw (rs1 rs2 : Reg) (imm : BitVec 12) (s : State) : Out := storeOp 4 4 (getReg s rs2) (baseOffset s rs1 imm) s

/-- `fence`, 42 R270: every access is already in program order, so no state changes (20 R143, R144). -/
def execFence (_fm _pred _succ : BitVec 4) (_rs1 _rd : Reg) (s : State) : Out := .next (retire 4 s)

/-- `fence.i`, 42 R271: later fetches see every earlier store (20 R145). -/
def execFenceI (_imm : BitVec 12) (_rs1 _rd : Reg) (s : State) : Out := .next (retire 4 { s with storeLog := [] })

end Sys2Proof.Machine
end

