-- ==== Sys2Proof/Machine/MulDiv.lean ====
section
/-! DEFINITION. The M extension (44_m_muldiv.md). -/

namespace Sys2Proof.Machine

/-- `mul`, 44 R310. -/
def execMul (rd rs1 rs2 : Reg) (s : State) : Out := writeResult 4 rd (getReg s rs1 * getReg s rs2) s

/-- `mulh`, 44 R311. -/
def execMulh (rd rs1 rs2 : Reg) (s : State) : Out :=
  writeResult 4 rd (highProduct ((getReg s rs1).toInt * (getReg s rs2).toInt)) s

/-- `mulhsu`, 44 R312. -/
def execMulhsu (rd rs1 rs2 : Reg) (s : State) : Out :=
  writeResult 4 rd (highProduct ((getReg s rs1).toInt * (getReg s rs2).toNat)) s

/-- `mulhu`, 44 R313. -/
def execMulhu (rd rs1 rs2 : Reg) (s : State) : Out :=
  writeResult 4 rd (highProduct ((getReg s rs1).toNat * (getReg s rs2).toNat)) s

/-- `div`, 44 R314. -/
def execDiv (rd rs1 rs2 : Reg) (s : State) : Out := writeResult 4 rd (divSigned (getReg s rs1) (getReg s rs2)) s

/-- `divu`, 44 R315. -/
def execDivu (rd rs1 rs2 : Reg) (s : State) : Out := writeResult 4 rd (divUnsigned (getReg s rs1) (getReg s rs2)) s

/-- `rem`, 44 R316. -/
def execRem (rd rs1 rs2 : Reg) (s : State) : Out := writeResult 4 rd (remSigned (getReg s rs1) (getReg s rs2)) s

/-- `remu`, 44 R319. -/
def execRemu (rd rs1 rs2 : Reg) (s : State) : Out := writeResult 4 rd (remUnsigned (getReg s rs1) (getReg s rs2)) s

end Sys2Proof.Machine
end

