-- ==== Sys2Proof/Machine/Csr.lean ====
section
/-! DEFINITION. The CSR address space: the list of R41, the access check of R42, and what a read and a write of each
ordinary CSR does (11_csr.md). -/

namespace Sys2Proof.Machine

/-- The CSRs of 10_state.md R41, in its order. -/
inductive Csr where
  | mvendorid | marchid | mimpid | mhartid
  | mstatus | misa | mie | mtvec | mcounteren | mtvt | mcountinhibit
  | mscratch | mepc | mcause | mtval | mip | mnxti | mintstatus | mscratchcsw | mscratchcswl
  | mcycle | mcycleh | minstret | minstreth
  | cycle | time | instret | cycleh | timeh | instreth
  | mnvec | msubm | mmiscCtl | msavestatus | msaveepc1 | msavecause1 | msaveepc2 | msavecause2
  | pushmsubm | mtvt2 | jalmnxti | pushmcause | pushmepc
  | wfe | sleepvalue | txevt
deriving DecidableEq, Repr

/-- The access classes that occur (R40, R41). -/
inductive CsrClass where
  | mrw
  | mro
  | uro
deriving DecidableEq, Repr

/-- The CSR at an address; none for a non-existing address (R41). -/
def csrAt (a : CsrAddr) : Option Csr :=
  match a with
  | 0xF11#12 => some .mvendorid
  | 0xF12#12 => some .marchid
  | 0xF13#12 => some .mimpid
  | 0xF14#12 => some .mhartid
  | 0x300#12 => some .mstatus
  | 0x301#12 => some .misa
  | 0x304#12 => some .mie
  | 0x305#12 => some .mtvec
  | 0x306#12 => some .mcounteren
  | 0x307#12 => some .mtvt
  | 0x320#12 => some .mcountinhibit
  | 0x340#12 => some .mscratch
  | 0x341#12 => some .mepc
  | 0x342#12 => some .mcause
  | 0x343#12 => some .mtval
  | 0x344#12 => some .mip
  | 0x345#12 => some .mnxti
  | 0x346#12 => some .mintstatus
  | 0x348#12 => some .mscratchcsw
  | 0x349#12 => some .mscratchcswl
  | 0xB00#12 => some .mcycle
  | 0xB80#12 => some .mcycleh
  | 0xB02#12 => some .minstret
  | 0xB82#12 => some .minstreth
  | 0xC00#12 => some .cycle
  | 0xC01#12 => some .time
  | 0xC02#12 => some .instret
  | 0xC80#12 => some .cycleh
  | 0xC81#12 => some .timeh
  | 0xC82#12 => some .instreth
  | 0x7C3#12 => some .mnvec
  | 0x7C4#12 => some .msubm
  | 0x7D0#12 => some .mmiscCtl
  | 0x7D6#12 => some .msavestatus
  | 0x7D7#12 => some .msaveepc1
  | 0x7D8#12 => some .msavecause1
  | 0x7D9#12 => some .msaveepc2
  | 0x7DA#12 => some .msavecause2
  | 0x7EB#12 => some .pushmsubm
  | 0x7EC#12 => some .mtvt2
  | 0x7ED#12 => some .jalmnxti
  | 0x7EE#12 => some .pushmcause
  | 0x7EF#12 => some .pushmepc
  | 0x810#12 => some .wfe
  | 0x811#12 => some .sleepvalue
  | 0x812#12 => some .txevt
  | _ => none

/-- The access class of a CSR (R41). -/
def csrClass : Csr → CsrClass
  | .mvendorid | .marchid | .mimpid | .mhartid | .misa | .mintstatus | .mnvec => .mro
  | .cycle | .time | .instret | .cycleh | .timeh | .instreth => .uro
  | .mstatus | .mie | .mtvec | .mcounteren | .mtvt | .mcountinhibit | .mscratch | .mepc | .mcause | .mtval | .mip
  | .mnxti | .mscratchcsw | .mscratchcswl | .mcycle | .mcycleh | .minstret | .minstreth | .msubm | .mmiscCtl
  | .msavestatus | .msaveepc1 | .msavecause1 | .msaveepc2 | .msavecause2 | .pushmsubm | .mtvt2 | .jalmnxti
  | .pushmcause | .pushmepc | .wfe | .sleepvalue | .txevt => .mrw

/-- The counter enable that User Mode needs to read a URO register (R42). -/
def counterEnabled (r : CsrFile) : Csr → Bool
  | .cycle | .cycleh => r.counterenCy
  | .time | .timeh => r.counterenTm
  | .instret | .instreth => r.counterenIr
  | _ => false

/-- The access check of R42 on an existing register, for an access that writes iff `wr`. -/
def accessAllowed (s : State) (c : Csr) (wr : Bool) : Bool :=
  match s.priv with
  | .machine => !(wr && csrClass c != .mrw)
  | .user => csrClass c == .uro && !wr && counterEnabled s.csr c

/-- The register that a CSR instruction may access; none where it is illegal (R42). -/
def csrAccess (s : State) (a : CsrAddr) (wr : Bool) : Option Csr :=
  match csrAt a with
  | none => none
  | some c =>
    if c = .mcounteren ∧ s.cfg.hasUmode = false then none
    else if accessAllowed s c wr then some c else none

/-- The CSRs that have no value of their own and turn an instruction into another operation (43 section 4). -/
def isSpecial : Csr → Bool
  | .mnxti | .jalmnxti | .pushmsubm | .pushmcause | .pushmepc | .mscratchcsw | .mscratchcswl => true
  | _ => false

/-- What stops an ordinary access (11_csr.md R59, R60), or an undocumented form on a special register (43 R304). -/
def csrRefusal (s : State) (c : Csr) : Option Refusal :=
  if isSpecial c then some .undocumentedCsrForm
  else if (c = .mie ∨ c = .mip) ∧ eclicMode s.csr = false then some .mieMipOutsideEclicMode
  else none

/-- The value of an ordinary CSR (11_csr.md); the special ones have none. -/
def csrRead (s : State) : Csr → Word
  | .mvendorid => s.cfg.mvendorid
  | .marchid => s.cfg.marchid
  | .mimpid => s.cfg.mimpid
  | .mhartid => s.cfg.mhartid
  | .mstatus => mstatusWord s.csr (Config.freeStatusBit s.steps)
  | .misa => misaWord s.cfg
  | .mie => 0#32
  | .mtvec => s.csr.mtvec
  | .mcounteren => mcounterenWord s.csr
  | .mtvt => s.csr.mtvt
  | .mcountinhibit => mcountinhibitWord s.csr
  | .mscratch => s.csr.mscratch
  | .mepc => s.csr.mepc
  | .mcause => mcauseWord s.csr
  | .mtval => s.csr.mtval
  | .mip => 0#32
  | .mnxti => 0#32
  | .mintstatus => mintstatusWord s.csr
  | .mscratchcsw => 0#32
  | .mscratchcswl => 0#32
  | .mcycle => lowHalf s.mcycle
  | .mcycleh => highHalf s.mcycle
  | .minstret => lowHalf s.minstret
  | .minstreth => highHalf s.minstret
  | .cycle => lowHalf s.mcycle
  | .time => lowHalf s.timer.mtime
  | .instret => lowHalf s.minstret
  | .cycleh => highHalf s.mcycle
  | .timeh => highHalf s.timer.mtime
  | .instreth => highHalf s.minstret
  | .mnvec => mnvecWord s.cfg s.csr
  | .msubm => msubmWord s.csr
  | .mmiscCtl => mmiscCtlWord s.csr
  | .msavestatus => msavestatusWord s.csr
  | .msaveepc1 => s.csr.save1.epc
  | .msavecause1 => s.csr.save1.cause
  | .msaveepc2 => s.csr.save2.epc
  | .msavecause2 => s.csr.save2.cause
  | .pushmsubm => 0#32
  | .mtvt2 => s.csr.mtvt2
  | .jalmnxti => 0#32
  | .pushmcause => 0#32
  | .pushmepc => 0#32
  | .wfe => bitWord s.csr.wfe
  | .sleepvalue => bitWord s.csr.sleepvalue
  | .txevt => 0#32

/-- The state after `v` is written to a CSR; the read-only and the special ones keep it (11_csr.md R50). -/
def csrWrite (s : State) (c : Csr) (v : Word) : State :=
  match c with
  | .mstatus => { s with csr := writeMstatus s.cfg (Config.freeModeIsM s.steps 0) s.csr v }
  | .mtvec => { s with csr := { s.csr with mtvec := v } }
  | .mcounteren =>
    { s with csr := { s.csr with
      counterenCy := v.getLsbD 0, counterenTm := v.getLsbD 1, counterenIr := v.getLsbD 2 } }
  | .mtvt => { s with csr := { s.csr with mtvt := mtvtLayout s.cfg v } }
  | .mcountinhibit => { s with csr := { s.csr with inhibitCy := v.getLsbD 0, inhibitIr := v.getLsbD 2 } }
  | .mscratch => { s with csr := { s.csr with mscratch := v } }
  | .mepc => { s with csr := { s.csr with mepc := clearBit0 v } }
  | .mcause => { s with csr := writeMcause s.cfg (Config.freeModeIsM s.steps 0) s.csr v }
  | .mtval => { s with csr := { s.csr with mtval := v } }
  | .mcycle => { s with mcycle := withLow s.mcycle v }
  | .mcycleh => { s with mcycle := withHigh s.mcycle v }
  | .minstret => { s with minstret := withLow s.minstret v }
  | .minstreth => { s with minstret := withHigh s.minstret v }
  | .msubm => { s with csr := writeMsubm s.csr v }
  | .mmiscCtl => { s with csr := { s.csr with nmiCauseFff := v.getLsbD 9 } }
  | .msavestatus => { s with csr := writeMsavestatus s.csr v }
  | .msaveepc1 => { s with csr := { s.csr with save1 := { s.csr.save1 with epc := clearBit0 v } } }
  | .msavecause1 => { s with csr := { s.csr with save1 := { s.csr.save1 with cause := causeLayout v } } }
  | .msaveepc2 => { s with csr := { s.csr with save2 := { s.csr.save2 with epc := clearBit0 v } } }
  | .msavecause2 => { s with csr := { s.csr with save2 := { s.csr.save2 with cause := causeLayout v } } }
  | .mtvt2 => { s with csr := { s.csr with mtvt2 := mtvt2Layout v } }
  | .wfe => { s with csr := { s.csr with wfe := v.getLsbD 0 } }
  | .sleepvalue => { s with csr := { s.csr with sleepvalue := v.getLsbD 0 } }
  | .txevt => if v.getLsbD 0 then { s with txPulses := s.txPulses + 1 } else s
  | .mvendorid | .marchid | .mimpid | .mhartid | .misa | .mie | .mip | .mnxti | .mintstatus | .mscratchcsw
  | .mscratchcswl | .cycle | .time | .instret | .cycleh | .timeh | .instreth | .mnvec | .pushmsubm | .jalmnxti
  | .pushmcause | .pushmepc => s

/-! ## The six CSR instructions on an ordinary register (43 R279 to R286) -/

/-- The count of retired instructions after a CSR instruction that started in `s` and wrote `c` iff `wr`: an own count is
free where the instruction writes the counter itself (11_csr.md R77, 93 U10; log 15), and the inhibit bit that counts is
the one in force before it (log 30). -/
def countAfterCsr (s : State) (c : Csr) (wr : Bool) (minstret : BitVec 64) : BitVec 64 :=
  if s.csr.inhibitIr then minstret
  else if wr && (c == .minstret || c == .minstreth) then
    (if Config.freeOwnCount s.steps then minstret + 1 else minstret)
  else minstret + 1

/-- The state after the write of a CSR instruction. -/
def csrUpdated (s : State) (c : Csr) (wr : Bool) (v : Word) : State := if wr then csrWrite s c v else s

/-- An ordinary access: write `v` if `wr`, x[rd] <- the value before, and on (43 R280 to R285). -/
def csrOp (rd : Reg) (c : Csr) (wr : Bool) (v : Word) (s : State) : Out :=
  match csrRefusal s c with
  | some r => .refused r
  | none =>
    .next
      { setReg (csrUpdated s c wr v) rd (csrRead s c) with
        pc := s.pc + 4
        minstret := countAfterCsr s c wr (csrUpdated s c wr v).minstret }

/-! ## The special registers (43 section 4) -/

/-- The interrupt that mnxti and jalmnxti find: the ECLIC's request, above mcause.MPIL and not vectored (R296, R298,
decision D10). That it is found in the same way whatever mtvec.MODE is the model's choice (DESIGN CHOICE, log 40). -/
def nextInterrupt (s : State) : Option Candidate :=
  match eclicRequest s.eclic with
  | some w => if s.csr.causeMpil.toNat < w.level.toNat ∧ w.shv = false then some w else none
  | none => none

/-- The claim of an interrupt by mnxti or jalmnxti: EXCCODE, MIL, and the pending bit (R296, R298). -/
def claimNext (w : Candidate) (s : State) : State :=
  { s with
    csr := { s.csr with causeExccode := BitVec.ofNat 12 w.id, mil := w.level }
    eclic := claim s.eclic w.id }

/-- MNXTI_VALUE(id) and the state after a read of the table (R297; log 18, log 19, log 41). -/
def mnxtiValue (s : State) (w : Candidate) : Word × State :=
  match s.cfg.mnxtiReading with
  | .entryAddress => (vectorEntry s.csr w.id, s)
  | .entryContent => readData s (vectorEntry s.csr w.id) 4

/-- The read-modify-write of mstatus by mnxti: of bits 4:0 only MIE is writable, and MPP and MPIE, seen in mcause too, are
not changed (R296). -/
def mnxtiStatus (set : Bool) (uimm : BitVec 5) (s : State) : State :=
  if uimm.getLsbD 3 then { s with csr := { s.csr with mie := set } } else s

/-- csrrsi (`set`) and csrrci on mnxti (R296). -/
def mnxtiOp (set : Bool) (rd : Reg) (uimm : BitVec 5) (s : State) : Out :=
  match nextInterrupt s with
  | none => writeResult 4 rd 0#32 (mnxtiStatus set uimm s)
  | some w =>
    let claimed := if uimm = 0#5 then s else claimNext w (mnxtiStatus set uimm s)
    let valued := mnxtiValue claimed w
    writeResult 4 rd valued.1 valued.2

/-- csrrw on jalmnxti (R298; log 19, log 41). -/
def jalmnxtiOp (rd : Reg) (s : State) : Out :=
  match nextInterrupt s with
  | none => .next (retire 4 s)
  | some w =>
    let table := readData s (vectorEntry s.csr w.id) 4
    let claimed := claimNext w { table.2 with csr := { table.2.csr with mie := true } }
    .next (retireTo (clearBit0 table.1) (setReg claimed rd s.pc))

/-- csrrwi with rd = x0 on a push register: the store of `v` at x2 + 4 * uimm (R300). -/
def pushOp (uimm : BitVec 5) (v : Word) (s : State) : Out :=
  storeOp 4 4 v (getReg s regSp + (zext uimm <<< 2)) s

/-- csrrw on mscratchcsw and mscratchcswl: the exchange with mscratch if `swap`, else a move (R302, R303). -/
def scratchSwap (swap : Bool) (rd rs1 : Reg) (s : State) : Out :=
  if swap then
    writeResult 4 rd s.csr.mscratch { s with csr := { s.csr with mscratch := getReg s rs1 } }
  else writeResult 4 rd (getReg s rs1) s

/-- The trap came from another privilege mode (R302). -/
def fromOtherMode (s : State) : Bool := s.csr.mpp != 3#2

/-- Exactly one of the previous and the current level is 0 (R303). -/
def crossesLevelZero (s : State) : Bool := (s.csr.causeMpil == 0#8) != (s.csr.mil == 0#8)

end Sys2Proof.Machine
end

