-- ==== Sys2Proof/Machine/System.lean ====
section
/-! DEFINITION. The SYSTEM instructions (43_system_csr.md). -/

namespace Sys2Proof.Machine

/-- `ecall`, 43 R275. -/
def execEcall (s : State) : Out :=
  match s.priv with
  | .user => raise codeEcallFromU 0#32 s
  | .machine => raise codeEcallFromM 0#32 s

/-- `ebreak`, 43 R276. -/
def execEbreak (s : State) : Out := raise codeBreakpoint 0#32 s

/-- `mret`, 43 R277: illegal in User Mode, else the return of 60 R440 to R442. -/
def execMret (s : State) : Out :=
  match s.priv with
  | .user => raiseIllegal .mret s
  | .machine => .next (returnFromTrap s)

/-- `wfi`, 43 R278: the hart sleeps, with the pc after the instruction. -/
def execWfi (s : State) : Out := .next (retire 4 { s with sleeping := true })

/-- `csrrw`, 43 R280; jalmnxti R298, mscratchcsw R302, mscratchcswl R303. -/
def execCsrrw (rd rs1 : Reg) (csr : CsrAddr) (s : State) : Out :=
  match csrAccess s csr true with
  | none => raiseIllegal (.csrrw rd rs1 csr) s
  | some .jalmnxti => jalmnxtiOp rd s
  | some .mscratchcsw => scratchSwap (fromOtherMode s) rd rs1 s
  | some .mscratchcswl => scratchSwap (crossesLevelZero s) rd rs1 s
  | some c => csrOp rd c true (getReg s rs1) s

/-- `csrrs`, 43 R281. -/
def execCsrrs (rd rs1 : Reg) (csr : CsrAddr) (s : State) : Out :=
  match csrAccess s csr (rs1 != 0#5) with
  | none => raiseIllegal (.csrrs rd rs1 csr) s
  | some c => csrOp rd c (rs1 != 0#5) (csrRead s c ||| getReg s rs1) s

/-- `csrrc`, 43 R282. -/
def execCsrrc (rd rs1 : Reg) (csr : CsrAddr) (s : State) : Out :=
  match csrAccess s csr (rs1 != 0#5) with
  | none => raiseIllegal (.csrrc rd rs1 csr) s
  | some c => csrOp rd c (rs1 != 0#5) (csrRead s c &&& ~~~(getReg s rs1)) s

/-- `csrrwi`, 43 R283; the push registers R300. -/
def execCsrrwi (rd : Reg) (uimm : BitVec 5) (csr : CsrAddr) (s : State) : Out :=
  match csrAccess s csr true with
  | none => raiseIllegal (.csrrwi rd uimm csr) s
  | some .pushmsubm => if rd = 0#5 then pushOp uimm (msubmWord s.csr) s else .refused .undocumentedCsrForm
  | some .pushmcause => if rd = 0#5 then pushOp uimm (mcauseWord s.csr) s else .refused .undocumentedCsrForm
  | some .pushmepc => if rd = 0#5 then pushOp uimm s.csr.mepc s else .refused .undocumentedCsrForm
  | some c => csrOp rd c true (zext uimm) s

/-- `csrrsi`, 43 R284; mnxti R295 to R297. -/
def execCsrrsi (rd : Reg) (uimm : BitVec 5) (csr : CsrAddr) (s : State) : Out :=
  match csrAccess s csr (uimm != 0#5) with
  | none => raiseIllegal (.csrrsi rd uimm csr) s
  | some .mnxti => mnxtiOp true rd uimm s
  | some c => csrOp rd c (uimm != 0#5) (csrRead s c ||| zext uimm) s

/-- `csrrci`, 43 R285; mnxti R295 to R297. -/
def execCsrrci (rd : Reg) (uimm : BitVec 5) (csr : CsrAddr) (s : State) : Out :=
  match csrAccess s csr (uimm != 0#5) with
  | none => raiseIllegal (.csrrci rd uimm csr) s
  | some .mnxti => mnxtiOp false rd uimm s
  | some c => csrOp rd c (uimm != 0#5) (csrRead s c &&& ~~~(zext uimm)) s

end Sys2Proof.Machine
end

