-- ==== Sys2Proof/Machine/Step.lean ====
section
/-! DEFINITION. One step of the hart (60_exceptions.md R410), and an instruction placed where the next step fetches. -/

namespace Sys2Proof.Machine

/-- Fetch, decode and execute the instruction at pc (R410). -/
def runInstruction (s : State) : Out :=
  match nextInstr s with
  | .inl out => out
  | .inr i => exec i s

/-- The boundary of a hart that is awake: NMI first, then an interrupt, then the instruction (R410, R444). -/
def runAwake (s : State) : Out :=
  if nmiTaken s then .next (enterNmi s)
  else match takeableInterrupt s with
    | some w => if eclicMode s.csr then .next (enterInterrupt w s) else .fault .defaultInterruptMode
    | none => runInstruction s

/-- The boundary after the inputs are sampled: a sleeping hart that nothing wakes stays as it is (R410). -/
def runBoundary (s : State) : Out :=
  if s.sleeping && !wakes s then .next s else runAwake { s with sleeping := false }

/-- One step (R410); a reset goes before everything (70_reset_and_hazards.md R600). -/
def step (s : State) : Host.Outcome State Fault Refusal :=
  if (nextSample s).reset then .next (resetEvent s) else runBoundary (sample s)

/-- `s` with an instruction of the opcode table, its `nbits` low bits `w`, stored at pc (log 6). -/
def State.withFetchWord (s : State) (nbits w : Nat) : State :=
  placeWord (BitVec.ofNat 32 (w % 2 ^ nbits)) s

end Sys2Proof.Machine
end

