-- ==== Sys2Proof/Safety.lean ====
section
/-! DEFINITION. What the statements say about a state: its invariant, and what an instruction leaves alone. -/

namespace Sys2Proof.Machine

/-- Bit 0 of an address is 0 (10_state.md R22). -/
def even (a : Word) : Bool := a.getLsbD 0 == false

/-- MPP holds one of the two privilege codes (11_csr.md R57). -/
def mppLegal (v : BitVec 2) : Bool := v == 0#2 || v == 3#2

/-- The constant bits of the fields of a CSR file: bit 0 of the saved pcs (R69, R86), the alignment of mtvt (R67), bit 1
of mtvt2 (R91), the reserved fields of the saved causes (R87), the codes of MPP (R57), and no mcounteren without User
Mode (R66). -/
structure CsrFile.Inv (c : Config) (r : CsrFile) : Prop where
  mepc   : even r.mepc = true
  epc1   : even r.save1.epc = true
  epc2   : even r.save2.epc = true
  cause1 : causeLayout r.save1.cause = r.save1.cause
  cause2 : causeLayout r.save2.cause = r.save2.cause
  mtvt   : mtvtLayout c r.mtvt = r.mtvt
  mtvt2  : mtvt2Layout r.mtvt2 = r.mtvt2
  mpp    : mppLegal r.mpp = true
  counteren : c.hasUmode = false → r.counterenCy = false ∧ r.counterenTm = false ∧ r.counterenIr = false

/-- The ECLIC has a register block for each source of the implementation (61 R473), with the unimplemented low bits of
clicintctl 1 (R482). -/
structure Eclic.Inv (c : Config) (e : Eclic) : Prop where
  length : e.sources.length = c.numInterrupt
  ctl    : ∀ src ∈ e.sources, src.ctl ||| ctlOnes c = src.ctl

/-- The invariant of the machine: parameters that 00_scope.md R9 allows, an even pc (R22), User Mode only where it is
configured (R24), the constant bits of the registers, and memory in its canonical form. -/
structure State.Inv (s : State) : Prop where
  cfg   : s.cfg.wf = true
  pc    : even s.pc = true
  priv  : s.priv = .user → s.cfg.hasUmode = true
  csr   : s.csr.Inv s.cfg
  eclic : s.eclic.Inv s.cfg
  mem   : s.mem.wf = true

/-- Every byte of memory reads in `t` as in `s`, but for the `n` bytes from `a` on. -/
def SameMemoryBut (a : Word) (n : Nat) (s t : State) : Prop :=
  ∀ b : Nat, b < a.toNat ∨ a.toNat + n ≤ b → t.mem.read b = s.mem.read b

/-- Every byte of memory reads in `t` as in `s`. -/
def SameMemory (s t : State) : Prop := ∀ b : Nat, t.mem.read b = s.mem.read b

/-- What no instruction changes but for the CSR writes to mcycle and txevt, wfi and the traps: the parameters, mcycle, the
NMI request, the sleep state, the sampled rx_evt, the tx_evt pulses and the model's inputs. -/
def SameOutside (s t : State) : Prop :=
  t.cfg = s.cfg ∧ t.mcycle = s.mcycle ∧ t.nmiPrev = s.nmiPrev ∧ t.nmiPending = s.nmiPending
    ∧ t.sleeping = s.sleeping ∧ t.rxEvt = s.rxEvt ∧ t.txPulses = s.txPulses ∧ t.env = s.env
    ∧ t.envRest = s.envRest ∧ t.steps = s.steps

/-- That, with the privilege mode and every CSR field as they were. -/
def SameControl (s t : State) : Prop := SameOutside s t ∧ t.priv = s.priv ∧ t.csr = s.csr

/-- The device registers and the reservation are as they were. -/
def SameDevices (s t : State) : Prop :=
  t.timer = s.timer ∧ t.eclic = s.eclic ∧ t.reservation = s.reservation

/-- Every register but `rd` reads in `t` as in `s`. -/
def SameRegsBut (rd : Reg) (s t : State) : Prop := ∀ r : Reg, r ≠ rd → getReg t r = getReg s r

/-- Every register reads in `t` as in `s`. -/
def SameRegs (s t : State) : Prop := ∀ r : Reg, getReg t r = getReg s r

/-- `rd` reads `v` in `t`, or 0 if it is x0 (10_state.md R20). -/
def Wrote (rd : Reg) (v : Word) (t : State) : Prop := getReg t rd = if rd = 0#5 then 0#32 else v

/-- What an instruction that only computes a register and goes on at `target` does: x[rd] is `v`, the instruction is
counted, and nothing else changes. With `rd` = x0 no register changes. -/
def ChangesOnly (rd : Reg) (v : Word) (target : Word) (s t : State) : Prop :=
  Wrote rd v t ∧ SameRegsBut rd s t ∧ t.pc = target ∧ t.minstret = countRetired s ∧ SameMemory s t
    ∧ SameControl s t ∧ SameDevices s t ∧ t.storeLog = s.storeLog ∧ t.errorReports = s.errorReports

/-- The same for an instruction `len` bytes long that does not jump. -/
def ComputesOnly (len : Word) (rd : Reg) (v : Word) (s t : State) : Prop := ChangesOnly rd v (s.pc + len) s t

/-- Bytes `a` to `a + n - 1` of memory read in `t` as the `n` low bytes of `v`, least significant first (20_memory.md
R131). -/
def HoldsBytes (a : Word) (n : Nat) (v : Word) (t : State) : Prop :=
  ∀ k : Nat, k < n → t.mem.read (a.toNat + k) = v.extractLsb' (8 * k) 8

/-- What a store of the `n` low bytes of `v` to `a` does, by an instruction `len` bytes long: these bytes, the pc and the
count of instructions change, and nothing else; the store is noted for later fetches (20_memory.md R145). -/
def StoresOnly (len a : Word) (n : Nat) (v : Word) (s t : State) : Prop :=
  HoldsBytes a n v t ∧ SameMemoryBut a n s t ∧ SameRegs s t ∧ t.pc = s.pc + len ∧ t.minstret = countRetired s
    ∧ SameControl s t ∧ SameDevices s t ∧ t.errorReports = s.errorReports

/-- What an atomic that writes x[rd] and stores `v` to the word at `a` does; the reservation becomes `r`. -/
def SwapsOnly (rd : Reg) (old a v : Word) (r : Option Word) (s t : State) : Prop :=
  Wrote rd old t ∧ SameRegsBut rd s t ∧ HoldsBytes a 4 v t ∧ SameMemoryBut a 4 s t ∧ t.pc = s.pc + 4
    ∧ t.minstret = countRetired s ∧ SameControl s t ∧ t.timer = s.timer ∧ t.eclic = s.eclic ∧ t.reservation = r
    ∧ t.errorReports = s.errorReports

/-- Exception entry from `s` to `t`, line by line (60_exceptions.md R423, R425): the state stack is pushed, mepc, mcause,
mtval, mstatus and msubm are written, Machine Mode is entered at the address in mtvec, the reservation ends; every other
CSR field, the registers, the counters, memory, the devices and the rest keep their values. -/
def TookException (epc : Word) (code : BitVec 12) (tval : Word) (s t : State) : Prop :=
  t.pc = s.csr.mtvec.extractLsb' 2 30 ++ 0#2 ∧ t.priv = .machine ∧ t.reservation = none
    ∧ t.csr = { s.csr with
        mepc := epc, causeInterrupt := false, causeExccode := code, mtval := tval
        mpie := s.csr.mie, mie := false, mpp := privCode s.priv, ptyp := s.csr.typ, typ := .exception
        save2 := s.csr.save1
        save1 :=
          { epc := s.csr.mepc, cause := csrRead s .mcause, mpie := s.csr.mpie, mpp := s.csr.mpp, ptyp := s.csr.ptyp } }
    ∧ SameRegs s t ∧ SameMemory s t ∧ SameOutside s t ∧ t.minstret = s.minstret ∧ t.timer = s.timer
    ∧ t.eclic = s.eclic ∧ t.errorReports = s.errorReports ∧ t.storeLog = s.storeLog

/-- The six CSR instructions with one register or immediate field, each with whether it writes (43 R279). -/
def csrForms (rd r : BitVec 5) (csr : CsrAddr) : List (Instr × Bool) :=
  [(.csrrw rd r csr, true), (.csrrs rd r csr, r != 0#5), (.csrrc rd r csr, r != 0#5),
   (.csrrwi rd r csr, true), (.csrrsi rd r csr, r != 0#5), (.csrrci rd r csr, r != 0#5)]

/-- The registers that show a write to `c`: itself, and those that mirror it (11_csr.md R57, R78 to R80, R82). -/
def seenIn : Csr → List Csr
  | .mstatus => [.mstatus, .mcause]
  | .mcause => [.mcause, .mstatus]
  | .mtvec => [.mtvec, .mnvec]
  | .mmiscCtl => [.mmiscCtl, .mnvec]
  | .mcycle => [.mcycle, .cycle]
  | .mcycleh => [.mcycleh, .cycleh]
  | .minstret => [.minstret, .instret]
  | .minstreth => [.minstreth, .instreth]
  | c => [c]

/-- What a CSR instruction that writes `v` to `c` iff `wr` does: x[rd] is the old value, the register is written by its
own rule, every register that does not mirror it reads as before, a 1 in bit 0 of txevt and nothing else emits one tx_evt
pulse (R94), the instruction is counted by the IR bit before it (log 30; an own count of a written counter is open, log 15),
and memory, the devices and the rest keep their values. -/
def AccessesCsr (rd : Reg) (c : Csr) (wr : Bool) (v : Word) (s t : State) : Prop :=
  Wrote rd (csrRead s c) t ∧ SameRegsBut rd s t ∧ t.pc = s.pc + 4 ∧ SameMemory s t ∧ SameDevices s t
    ∧ t.priv = s.priv ∧ t.cfg = s.cfg ∧ t.sleeping = s.sleeping ∧ t.nmiPending = s.nmiPending
    ∧ t.nmiPrev = s.nmiPrev ∧ t.rxEvt = s.rxEvt ∧ t.errorReports = s.errorReports ∧ t.storeLog = s.storeLog
    ∧ t.env = s.env ∧ t.envRest = s.envRest ∧ t.steps = s.steps
    ∧ t.csr = (if wr then csrWrite s c v else s).csr
    ∧ t.mcycle = (if wr then csrWrite s c v else s).mcycle
    ∧ t.txPulses = s.txPulses + (if wr = true ∧ c = .txevt ∧ v.getLsbD 0 = true then 1 else 0)
    ∧ (∀ c' : Csr, (wr = false ∨ c' ∉ seenIn c) → c' ∉ [Csr.minstret, .minstreth, .instret, .instreth] →
        csrRead t c' = csrRead s c')
    ∧ (wr = false ∨ (c ≠ .minstret ∧ c ≠ .minstreth) → t.minstret = countRetired s)
    ∧ (wr = true → (c = .minstret ∨ c = .minstreth) →
        t.minstret = (csrWrite s c v).minstret
          ∨ (s.csr.inhibitIr = false ∧ t.minstret = (csrWrite s c v).minstret + 1))

/-- All `n` bytes from `a` on are RAM of the platform (20_memory.md R141). -/
def AllRam (c : Config) (a : Word) (n : Nat) : Prop :=
  placeOf c a = .memory ∧ ∀ k : Nat, k < n → isRam c (a.toNat + k) = true

/-- All `n` bytes from `a` on are RAM or ROM of the platform (20_memory.md R141). -/
def AllMapped (c : Config) (a : Word) (n : Nat) : Prop :=
  placeOf c a = .memory ∧ ∀ k : Nat, k < n → isMapped c (a.toNat + k) = true

/-- The little-endian halfword and word at `a` (20_memory.md R131). -/
def halfAt (s : State) (a : Word) : BitVec 16 := s.mem.read (a.toNat + 1) ++ s.mem.read a.toNat
def wordAt (s : State) (a : Word) : Word :=
  s.mem.read (a.toNat + 3) ++ s.mem.read (a.toNat + 2) ++ s.mem.read (a.toNat + 1) ++ s.mem.read a.toNat

/-! ## The forms of loads and stores -/

/-- A load: the instruction, its length, its register, the effective address, the bytes read, and whether it
sign-extends. -/
structure LoadForm where
  instr  : Instr
  len    : Word
  rd     : Reg
  addr   : Word
  bytes  : Nat
  signed : Bool

/-- What a load puts into its register when the low bytes of `v` are read (42 R258 to R262). -/
def LoadForm.value (p : LoadForm) (v : Word) : Word :=
  if p.signed then (v.setWidth (8 * p.bytes)).signExtend 32 else (v.setWidth (8 * p.bytes)).setWidth 32

/-- The loads (42 R258 to R262, 46 R342, R361). -/
def loadForms (s : State) (rd rs1 : Reg) (imm : BitVec 12) (d b : CReg) (u7 : BitVec 7) (u8 : BitVec 8) : List LoadForm :=
  [⟨.lb rd rs1 imm, 4, rd, getReg s rs1 + imm.signExtend 32, 1, true⟩,
   ⟨.lh rd rs1 imm, 4, rd, getReg s rs1 + imm.signExtend 32, 2, true⟩,
   ⟨.lw rd rs1 imm, 4, rd, getReg s rs1 + imm.signExtend 32, 4, false⟩,
   ⟨.lbu rd rs1 imm, 4, rd, getReg s rs1 + imm.signExtend 32, 1, false⟩,
   ⟨.lhu rd rs1 imm, 4, rd, getReg s rs1 + imm.signExtend 32, 2, false⟩,
   ⟨.cLw d b u7, 2, 0b01#2 ++ d, getReg s (0b01#2 ++ b) + u7.setWidth 32, 4, false⟩,
   ⟨.cLwsp rd u8, 2, rd, getReg s 2 + u8.setWidth 32, 4, false⟩]

/-- A store: the instruction, its length, the effective address, the bytes stored, and the word they are the low bytes
of. -/
structure StoreForm where
  instr : Instr
  len   : Word
  addr  : Word
  bytes : Nat
  value : Word

/-- The stores (42 R264 to R266, 46 R343, R367), in Machine Mode with those of the push registers (43 R300). -/
def storeForms (s : State) (rs1 rs2 : Reg) (imm : BitVec 12) (d b : CReg) (u7 : BitVec 7) (u8 : BitVec 8) (n : BitVec 5) :
    List StoreForm :=
  [⟨.sb rs1 rs2 imm, 4, getReg s rs1 + imm.signExtend 32, 1, getReg s rs2⟩,
   ⟨.sh rs1 rs2 imm, 4, getReg s rs1 + imm.signExtend 32, 2, getReg s rs2⟩,
   ⟨.sw rs1 rs2 imm, 4, getReg s rs1 + imm.signExtend 32, 4, getReg s rs2⟩,
   ⟨.cSw b d u7, 2, getReg s (0b01#2 ++ b) + u7.setWidth 32, 4, getReg s (0b01#2 ++ d)⟩,
   ⟨.cSwsp rs2 u8, 2, getReg s 2 + u8.setWidth 32, 4, getReg s rs2⟩]
  ++ if s.priv = .machine then
    [⟨.csrrwi 0 n 0x7EB, 4, getReg s 2 + 4 * n.setWidth 32, 4, csrRead s .msubm⟩,
     ⟨.csrrwi 0 n 0x7EE, 4, getReg s 2 + 4 * n.setWidth 32, 4, csrRead s .mcause⟩,
     ⟨.csrrwi 0 n 0x7EF, 4, getReg s 2 + 4 * n.setWidth 32, 4, csrRead s .mepc⟩]
  else []

/-- What an instruction `len` bytes long does to everything but registers and reservation when the platform answers its
write of the `n` bytes at `a` with an error (20_memory.md R139; which bytes keep their values is log 10). -/
def FailsWriting (len a : Word) (n : Nat) (s t : State) : Prop :=
  t.errorReports = s.errorReports + 1 ∧ SameMemoryBut a n s t
    ∧ (∀ b : Nat, isMapped s.cfg b = false → t.mem.read b = s.mem.read b)
    ∧ t.pc = s.pc + len ∧ t.minstret = countRetired s ∧ SameControl s t ∧ t.timer = s.timer ∧ t.eclic = s.eclic

/-- What a store to a device window leaves alone: all but the window's own registers, the pc and the count. -/
def StoresToDevice (len : Word) (s t : State) : Prop :=
  SameRegs s t ∧ t.pc = s.pc + len ∧ t.minstret = countRetired s ∧ SameMemory s t ∧ SameControl s t
    ∧ t.reservation = s.reservation ∧ t.errorReports = s.errorReports ∧ t.storeLog = s.storeLog

/-- At the boundary of `s` no trap is due and the hart is awake or wakes: `u`, the state with the inputs sampled, awake,
goes on to its instruction (60 R410). -/
def GoesOn (s u : State) : Prop :=
  u = { sample s with sleeping := false } ∧ (nextSample s).reset = false ∧ (s.sleeping = true → wakes (sample s) = true)
    ∧ nmiTaken u = false ∧ takeableInterrupt u = none

/-! ## The fetch -/

/-- No store since the last fence.i touched the parcel at `a` (20_memory.md R145). -/
def Untouched (s : State) (a : Nat) : Prop :=
  ∀ cells ∈ s.storeLog, ∀ cell ∈ cells, cell.1 ≠ a ∧ cell.1 ≠ a + 1

/-- The parcel at `a` can be fetched and is `p` (20_memory.md R134): two bytes of memory that no store since the last
fence.i touched, or two byte registers of the ECLIC (log 23). -/
def ParcelAt (s : State) (a : Word) (p : BitVec 16) : Prop :=
  (placeOf s.cfg a = .memory ∧ readable s.cfg a.toNat 2 = true ∧ Untouched s a.toNat ∧ p = halfAt s a)
    ∨ ∃ offset : Nat, placeOf s.cfg a = .eclic offset
        ∧ p = eclicReadByte s.cfg s.eclic (offset + 1) ++ eclicReadByte s.cfg s.eclic offset

/-- The instruction word at pc is `e`: one parcel, or two where the low bits of the first are 11 (20_memory.md R134). -/
def WordAtPc (s : State) : Encoding → Prop
  | .half low => low.extractLsb' 0 2 ≠ 3#2 ∧ ParcelAt s s.pc low
  | .full w => w.extractLsb' 0 2 = 3#2 ∧ ParcelAt s s.pc (w.extractLsb' 0 16)
      ∧ ParcelAt s (s.pc + 2) (w.extractLsb' 16 16)

/-! ## What stops an instruction -/

/-- `i` is an aligned byte or halfword access to the TIMER window (61 R461, decision D22). -/
def NarrowTimerAccess (i : Instr) (s : State) : Prop :=
  ∃ (rs1 r : Reg) (imm : BitVec 12) (offset : Nat), placeOf s.cfg (getReg s rs1 + imm.signExtend 32) = .timer offset
    ∧ (i ∈ [Instr.lb r rs1 imm, .lbu r rs1 imm, .sb rs1 r imm]
      ∨ ((getReg s rs1 + imm.signExtend 32).toNat % 2 = 0
        ∧ i ∈ [Instr.lh r rs1 imm, .lhu r rs1 imm, .sh rs1 r imm]))

/-- `i` is an aligned lr.w, sc.w or AMO on a device window (45 R339, decision D22). -/
def AtomicOnDevice (i : Instr) (s : State) : Prop :=
  ∃ (rd rs1 rs2 : Reg) (aq rl : BitVec 1), placeOf s.cfg (getReg s rs1) ≠ .memory ∧ (getReg s rs1).toNat % 4 = 0
    ∧ i ∈ [Instr.lrW rd rs1 aq rl, .scW rd rs1 rs2 aq rl, .amoswapW rd rs1 rs2 aq rl, .amoaddW rd rs1 rs2 aq rl,
        .amoxorW rd rs1 rs2 aq rl, .amoandW rd rs1 rs2 aq rl, .amoorW rd rs1 rs2 aq rl, .amominW rd rs1 rs2 aq rl,
        .amomaxW rd rs1 rs2 aq rl, .amominuW rd rs1 rs2 aq rl, .amomaxuW rd rs1 rs2 aq rl]

/-- The forms of mnxti, jalmnxti, the push registers and mscratchcsw(l) that no source describes (43 R304). -/
def undocumentedForms (rd r : BitVec 5) : List Instr :=
  [.csrrw rd r 0x345, .csrrs rd r 0x345, .csrrc rd r 0x345, .csrrwi rd r 0x345,
   .csrrs rd r 0x7ED, .csrrc rd r 0x7ED, .csrrwi rd r 0x7ED, .csrrsi rd r 0x7ED, .csrrci rd r 0x7ED,
   .csrrs rd r 0x348, .csrrc rd r 0x348, .csrrwi rd r 0x348, .csrrsi rd r 0x348, .csrrci rd r 0x348,
   .csrrs rd r 0x349, .csrrc rd r 0x349, .csrrwi rd r 0x349, .csrrsi rd r 0x349, .csrrci rd r 0x349]
  ++ [0x7EB#12, 0x7EE#12, 0x7EF#12].flatMap fun csr =>
    [.csrrw rd r csr, .csrrs rd r csr, .csrrc rd r csr, .csrrsi rd r csr, .csrrci rd r csr]
      ++ if rd = 0#5 then [] else [.csrrwi rd r csr]

/-- `i` is such a form, in Machine Mode. -/
def UndocumentedForm (i : Instr) (s : State) : Prop :=
  s.priv = .machine ∧ ∃ rd r : BitVec 5, i ∈ undocumentedForms rd r

/-- `i` is an access to mie or mip in Machine Mode while mtvec.MODE is not 0b000011 (11_csr.md R59, R60, 93 U8). -/
def MieMipAccess (i : Instr) (s : State) : Prop :=
  s.priv = .machine ∧ s.csr.mtvec.extractLsb' 0 6 ≠ 3#6
    ∧ ∃ (rd r : BitVec 5) (csr : CsrAddr) (wr : Bool), (csr = 0x304#12 ∨ csr = 0x344#12) ∧ (i, wr) ∈ csrForms rd r csr

/-! ## Tables of the spec -/

/-- The CSRs with their addresses and access classes (10_state.md R41). -/
def csrTable : List (CsrAddr × Csr × CsrClass) :=
  [(0xF11, .mvendorid, .mro), (0xF12, .marchid, .mro), (0xF13, .mimpid, .mro), (0xF14, .mhartid, .mro),
   (0x300, .mstatus, .mrw), (0x301, .misa, .mro), (0x304, .mie, .mrw), (0x305, .mtvec, .mrw),
   (0x306, .mcounteren, .mrw), (0x307, .mtvt, .mrw), (0x320, .mcountinhibit, .mrw), (0x340, .mscratch, .mrw),
   (0x341, .mepc, .mrw), (0x342, .mcause, .mrw), (0x343, .mtval, .mrw), (0x344, .mip, .mrw)]
  ++ [(0x345, .mnxti, .mrw), (0x346, .mintstatus, .mro), (0x348, .mscratchcsw, .mrw), (0x349, .mscratchcswl, .mrw),
   (0xB00, .mcycle, .mrw), (0xB80, .mcycleh, .mrw), (0xB02, .minstret, .mrw), (0xB82, .minstreth, .mrw),
   (0xC00, .cycle, .uro), (0xC01, .time, .uro), (0xC02, .instret, .uro), (0xC80, .cycleh, .uro),
   (0xC81, .timeh, .uro), (0xC82, .instreth, .uro), (0x7C3, .mnvec, .mro), (0x7C4, .msubm, .mrw)]
  ++ [(0x7D0, .mmiscCtl, .mrw), (0x7D6, .msavestatus, .mrw), (0x7D7, .msaveepc1, .mrw), (0x7D8, .msavecause1, .mrw),
   (0x7D9, .msaveepc2, .mrw), (0x7DA, .msavecause2, .mrw), (0x7EB, .pushmsubm, .mrw), (0x7EC, .mtvt2, .mrw),
   (0x7ED, .jalmnxti, .mrw), (0x7EE, .pushmcause, .mrw), (0x7EF, .pushmepc, .mrw), (0x810, .wfe, .mrw),
   (0x811, .sleepvalue, .mrw), (0x812, .txevt, .mrw)]

/-- The block of a source as a word: clicintctl, clicintattr, clicintie, clicintip (61 R474, R478 to R482). -/
def sourceBlock (src : Source) : Word :=
  src.ctl ++ 0b11000#5 ++ BitVec.ofBool src.falling ++ BitVec.ofBool src.edge ++ BitVec.ofBool src.shv
    ++ 0#7 ++ BitVec.ofBool src.ie ++ 0#7 ++ BitVec.ofBool src.ip

/-- A source after a store of the `n` low bytes of `v` to its block, from byte `k` on: each byte by its own rule
(61 R474, R478 to R482), the pending bit by the trigger mode from before the store (log 38). -/
def storedSource (c : Config) (src : Source) (k n : Nat) (v : Word) : Source :=
  { src with
    ip := if k = 0 ∧ src.edge = true then v.getLsbD 0 else src.ip
    ie := if k ≤ 1 ∧ 1 < k + n then v.getLsbD (8 * (1 - k)) else src.ie
    shv := if k ≤ 2 ∧ 2 < k + n then v.getLsbD (8 * (2 - k)) else src.shv
    edge := if k ≤ 2 ∧ 2 < k + n then v.getLsbD (8 * (2 - k) + 1) else src.edge
    falling := if k ≤ 2 ∧ 2 < k + n then v.getLsbD (8 * (2 - k) + 2) else src.falling
    ctl := if k ≤ 3 ∧ 3 < k + n then v.extractLsb' (8 * (3 - k)) 8 ||| ctlOnes c else src.ctl }

/-- The byte register at an offset below the blocks of the sources: cliccfg, clicinfo, mth, else 0 (61 R473 to R477). -/
def globalByte (c : Config) (e : Eclic) (offset : Nat) : Byte :=
  if offset = 0x0 then 0#3 ++ e.nlbits ++ 1#1
  else if offset = 0xB then e.mth
  else if 0x4 ≤ offset ∧ offset < 0x8 then
    (0#7 ++ BitVec.ofNat 4 c.clicIntCtlBits ++ c.eclicVersion ++ BitVec.ofNat 13 c.numInterrupt).extractLsb'
      (8 * (offset - 0x4)) 8
  else 0#8

end Sys2Proof.Machine
end

