-- ==== Sys2Proof/Certificates/Slice0/Obligations.lean ====
section
/-! DEFINITION. The statements for the provers. -/

open Sys2Proof Sys2Proof.Machine

/-! ## Reset and the invariant -/

/-- 10_state.md R45, R43, R44, 70 R601, R604: the values that the spec gives for reset, on every implementation. -/
def Obligations.ResetState : Prop :=
  ∀ c : Config,
    let s := State.resetWith c
    s.pc = c.resetVector ∧ s.priv = .machine ∧ s.csr.typ = .normal ∧ s.csr.ptyp = .normal ∧ s.csr.mil = 0#8
      ∧ csrRead s .mstatus &&& 0xFFFDFFFF#32 = 0#32 ∧ csrRead s .mcounteren = 0#32
      ∧ s.csr.mtvt2.getLsbD 0 = false ∧ csrRead s .wfe = 0#32 ∧ csrRead s .sleepvalue = 0#32
      ∧ csrRead s .txevt = 0#32 ∧ csrRead s .mepc &&& 1#32 = 0#32
      ∧ s.sleeping = false ∧ s.nmiPending = false ∧ s.reservation = none
      ∧ coreWfiMode s = false ∧ coreSleepValue s = false
      ∧ s.timer.mtime = 0#64 ∧ s.timer.mtimecmp = 0xFFFFFFFFFFFFFFFF#64 ∧ s.timer.timestop = false
      ∧ s.timer.msip = false ∧ s.timer.irq = false
      ∧ eclicReadByte c s.eclic 0 = 0x01#8
      ∧ (∀ i : Nat, i < c.numInterrupt →
          eclicReadByte c s.eclic (0x1000 + 4 * i) = 0#8 ∧ eclicReadByte c s.eclic (0x1001 + 4 * i) = 0#8
            ∧ eclicReadByte c s.eclic (0x1002 + 4 * i) = 0xC0#8
            ∧ eclicReadByte c s.eclic (0x1003 + 4 * i) ||| ctlOnes c
                = eclicReadByte c s.eclic (0x1003 + 4 * i))

/-- The state after reset, on every implementation that 00_scope.md R9 allows, meets the invariant. -/
def Obligations.ResetMeetsInvariant : Prop := ∀ c : Config, c.wf = true → (State.resetWith c).Inv

/-- The invariant is kept by every step that gives a next state. -/
def Obligations.StepKeepsInvariant : Prop := ∀ s t : State, s.Inv → step s = .next t → t.Inv

/-- 70 R600: a reset at a boundary gives the registers of the reset state and runs nothing; the fields of mcause that are
its own are not written. That memory is kept is the model's choice (log 27), and so are the values of the other registers
whose reset value no source gives (log 3, log 4). -/
def Obligations.ResetEventAtBoundary : Prop :=
  ∀ s : State, (nextSample s).reset = true →
    ∃ t, step s = .next t ∧ t.pc = s.cfg.resetVector ∧ t.priv = .machine
      ∧ t.csr = { CsrFile.reset with
          causeInterrupt := s.csr.causeInterrupt, causeMinhv := s.csr.causeMinhv
          causeMpil := s.csr.causeMpil, causeExccode := s.csr.causeExccode }
      ∧ t.sleeping = false ∧ t.nmiPending = false ∧ t.reservation = none ∧ t.timer = Timer.reset
      ∧ t.eclic = Eclic.reset s.cfg ∧ t.cfg = s.cfg ∧ SameMemory s t

/-! ## Encoding -/

/-- Decoding the bytes of an encoded well-formed instruction gives that instruction and leaves the bytes after it. -/
def Obligations.DecodeOfEncode : Prop :=
  ∀ (i : Instr) (rest : List Byte), i.wf = true → decode ((encode i).bytes ++ rest) = .ok (i, rest)

/-- A word that decodes is the encoding of what it decodes to, and that is well-formed: no two words share a meaning. -/
def Obligations.EncodeOfDecode : Prop :=
  ∀ (e : Encoding) (i : Instr), decodeEncoding e = .ok i → i.wf = true ∧ encode i = e

/-- Words written out in the spec decode to the instructions they stand for (40 to 46, one or two of each file). -/
def Obligations.SpecWordsDecode : Prop :=
  decodeTableWord 32 0x00C58533 = some (.add 10 11 12) ∧ decodeTableWord 32 0xFFF58513 = some (.addi 10 11 0xFFF)
    ∧ decodeTableWord 32 0xFFDFF06F = some (.jal 0 0x1FFFFC) ∧ decodeTableWord 32 0xFEC598E3 = some (.bne 11 12 0x1FF0)
    ∧ decodeTableWord 32 0xFFC5A503 = some (.lw 10 11 0xFFC) ∧ decodeTableWord 32 0x00C581A3 = some (.sb 11 12 3)
    ∧ decodeTableWord 32 0x340312F3 = some (.csrrw 5 6 0x340) ∧ decodeTableWord 32 0x30200073 = some .mret
    ∧ decodeTableWord 32 0x027342B3 = some (.div 5 6 7) ∧ decodeTableWord 32 0x1A7322AF = some (.scW 5 6 7 0 1)
    ∧ decodeTableWord 16 0x617D = some (.cAddi16sp 496) ∧ decodeTableWord 16 0xFC65 = some (.cBnez 0 0x1F8)

/-! ## The step -/

/-- 60 R410, 20 R134: where no trap is due and the hart is awake or wakes, the step runs the instruction at pc on the state
with the inputs sampled, awake; where the bytes at pc decode to an instruction, that is well-formed and the one it runs. The
bytes are memory's that no store since the last fence.i touched (R145), or registers of the ECLIC (log 23). -/
def Obligations.StepRunsDecoded : Prop :=
  ∀ s u : State, GoesOn s u → step s = runInstruction u ∧
    ∀ (e : Encoding) (i : Instr), WordAtPc u e → decode e.bytes = .ok (i, []) → i.wf = true ∧ step s = exec i u

/-- 60 R410 (the order is decision D24), R431, R432, R444, 61 R503: at a boundary with an NMI pending and TYP not 3 the
NMI is entered, asleep or not, whatever interrupt is requested, and the state after it is as R432 and R425 say, with every
other CSR field and the devices as they were. -/
def Obligations.NmiTakenFirst : Prop :=
  ∀ s u : State, u = sample s → (nextSample s).reset = false → u.nmiPending = true → u.csr.typ ≠ .nmi →
    ∃ t, step s = .next t ∧ t.nmiPending = false ∧ t.sleeping = false ∧ t.priv = .machine ∧ t.reservation = none
      ∧ t.pc = (if u.csr.nmiCauseFff then u.csr.mtvec.extractLsb' 2 30 ++ 0#2 else u.cfg.resetVector)
      ∧ t.csr = { u.csr with
          mepc := u.pc, causeInterrupt := false
          causeExccode := if u.csr.nmiCauseFff then 0xFFF#12 else 1#12
          mpie := u.csr.mie, mie := false, mpp := privCode u.priv, ptyp := u.csr.typ, typ := .nmi
          save2 := u.csr.save1
          save1 := { epc := u.csr.mepc, cause := csrRead u .mcause, mpie := u.csr.mpie, mpp := u.csr.mpp,
                     ptyp := u.csr.ptyp } }
      ∧ SameRegs s t ∧ SameMemory s t ∧ t.minstret = s.minstret ∧ t.mcycle = u.mcycle ∧ t.timer = u.timer
      ∧ t.eclic = u.eclic ∧ t.errorReports = u.errorReports ∧ t.storeLog = u.storeLog

/-- 60 R435, R437: a non-vectored interrupt that is requested, above MIL and enabled is entered at the common entry; its
pending bit and MINHV stay, the state stack is not pushed, and no register, memory byte, counter or device changes. -/
def Obligations.NonVectoredEntry : Prop :=
  ∀ (s u : State) (w : Candidate), u = sample s → (nextSample s).reset = false → nmiTaken u = false →
    eclicRequest u.eclic = some w → w.shv = false → u.csr.mil.toNat < w.level.toNat →
    (u.csr.mie = true ∨ u.priv = .user) → u.csr.mtvec.extractLsb' 0 6 = 3#6 →
    ∃ t, step s = .next t
      ∧ t.pc = (if u.csr.mtvt2.getLsbD 0 then u.csr.mtvt2.extractLsb' 2 30 ++ 0#2
                else u.csr.mtvec.extractLsb' 2 30 ++ 0#2)
      ∧ t.csr = { u.csr with
          mepc := u.pc, causeInterrupt := true, causeExccode := BitVec.ofNat 12 w.id, causeMpil := u.csr.mil,
          mil := w.level, mpie := u.csr.mie, mie := false, mpp := privCode u.priv, ptyp := u.csr.typ,
          typ := .interrupt }
      ∧ t.priv = .machine ∧ t.reservation = none ∧ t.sleeping = false ∧ t.eclic = u.eclic
      ∧ SameRegs s t ∧ SameMemory s t ∧ t.minstret = s.minstret ∧ SameOutside { u with sleeping := false } t ∧ t.timer = u.timer
      ∧ t.errorReports = u.errorReports ∧ t.storeLog = u.storeLog

/-- 60 R435, R436, R434: a vectored interrupt jumps to the word of its table entry with bit 0 cleared, MINHV is 0, and the
pending bit is cleared exactly if the source is edge-triggered; the bytes of the entry are memory's. That this
holds of a reserved source too, which software made pending, is the model's choice (log 41). -/
def Obligations.VectoredEntry : Prop :=
  ∀ (s u : State) (w : Candidate) (a : Word), u = sample s → (nextSample s).reset = false → nmiTaken u = false →
    eclicRequest u.eclic = some w → w.shv = true → u.csr.mil.toNat < w.level.toNat →
    (u.csr.mie = true ∨ u.priv = .user) → u.csr.mtvec.extractLsb' 0 6 = 3#6 →
    a = u.csr.mtvt + BitVec.ofNat 32 (4 * w.id) → AllMapped u.cfg a 4 →
    ∃ t, step s = .next t ∧ t.pc = wordAt u a &&& 0xFFFFFFFE#32
      ∧ t.csr = { u.csr with
          mepc := u.pc, causeInterrupt := true, causeExccode := BitVec.ofNat 12 w.id, causeMpil := u.csr.mil,
          causeMinhv := false, mil := w.level, mpie := u.csr.mie, mie := false, mpp := privCode u.priv,
          ptyp := u.csr.typ, typ := .interrupt }
      ∧ t.priv = .machine ∧ t.reservation = none ∧ t.sleeping = false
      ∧ (∀ i : Nat, i ≠ w.id → t.eclic.sources[i]? = u.eclic.sources[i]?)
      ∧ (∀ src, u.eclic.sources[w.id]? = some src →
          t.eclic.sources[w.id]? = some (if src.edge then { src with ip := false } else src))
      ∧ t.eclic.nlbits = u.eclic.nlbits ∧ t.eclic.mth = u.eclic.mth
      ∧ SameRegs s t ∧ SameMemory s t ∧ t.minstret = s.minstret ∧ SameOutside { u with sleeping := false } t ∧ t.timer = u.timer
      ∧ t.errorReports = u.errorReports ∧ t.storeLog = u.storeLog

/-- 60 R436, R423, R425, decision D30: when the read of the table entry fails, the entry of the interrupt is followed by
exception 1 with mepc and mtval at the table entry, MINHV 1, the interrupted context on the first level of the state stack,
and the pending bit kept. That this holds of a reserved source too is the model's choice (log 41). -/
def Obligations.VectorReadFault : Prop :=
  ∀ (s u : State) (w : Candidate) (a : Word), u = sample s → (nextSample s).reset = false → nmiTaken u = false →
    eclicRequest u.eclic = some w → w.shv = true → u.csr.mil.toNat < w.level.toNat →
    (u.csr.mie = true ∨ u.priv = .user) → u.csr.mtvec.extractLsb' 0 6 = 3#6 →
    a = u.csr.mtvt + BitVec.ofNat 32 (4 * w.id) → placeOf u.cfg a = .memory → readable u.cfg a.toNat 4 = false →
    ∃ t, step s = .next t ∧ t.pc = u.csr.mtvec.extractLsb' 2 30 ++ 0#2
      ∧ t.csr = { u.csr with
          mepc := a, mtval := a, causeInterrupt := false, causeExccode := 1#12, causeMinhv := true
          causeMpil := u.csr.mil, mil := w.level, mpie := false, mie := false, mpp := 3#2, ptyp := .interrupt
          typ := .exception, save2 := u.csr.save1
          save1 :=
            { epc := u.pc, mpie := u.csr.mie, mpp := privCode u.priv, ptyp := u.csr.typ
              cause := 3#2 ++ privCode u.priv ++ BitVec.ofBool u.csr.mie ++ 0#3 ++ u.csr.mil ++ 0#4
                ++ BitVec.ofNat 12 w.id } }
      ∧ t.priv = .machine ∧ t.reservation = none ∧ t.sleeping = false ∧ t.eclic = u.eclic
      ∧ SameRegs s t ∧ SameMemory s t ∧ t.minstret = s.minstret ∧ SameOutside { u with sleeping := false } t ∧ t.timer = u.timer
      ∧ t.errorReports = u.errorReports ∧ t.storeLog = u.storeLog

/-- 60 R435, decision D12: an interrupt that would be taken while mtvec.MODE is not 0b000011 stops the machine. -/
def Obligations.DefaultModeStops : Prop :=
  ∀ (s u : State) (w : Candidate), u = sample s → (nextSample s).reset = false → nmiTaken u = false →
    eclicRequest u.eclic = some w → u.csr.mil.toNat < w.level.toNat → (u.csr.mie = true ∨ u.priv = .user) →
    u.csr.mtvec.extractLsb' 0 6 ≠ 3#6 → step s = .fault .defaultInterruptMode

/-- 61 R504 to R506: what a sleeping hart does that takes neither an NMI nor an interrupt. With interrupts off it goes on
after the wfi when the ECLIC requests (WFE 0) or rx_evt is high (WFE 1); in every other case it stays asleep, and only
the sampled inputs move. That a hart wakes in this way whatever mtvec.MODE is the model's choice (log 20). -/
def Obligations.SleepingStep : Prop :=
  ∀ s u : State, u = sample s → (nextSample s).reset = false → s.sleeping = true →
    (u.nmiPending = false ∨ u.csr.typ = .nmi) → takeableInterrupt u = none →
    (u.csr.mie = false → u.priv = .machine → u.csr.wfe = false → (eclicRequest u.eclic).isSome = true →
      step s = runInstruction { u with sleeping := false }) ∧
    (u.csr.mie = false → u.priv = .machine → u.csr.wfe = true → u.rxEvt = true →
      step s = runInstruction { u with sleeping := false }) ∧
    ((u.csr.mie = true ∨ u.priv = .user ∨ (u.csr.wfe = false ∧ eclicRequest u.eclic = none)
        ∨ (u.csr.wfe = true ∧ u.rxEvt = false)) →
      step s = .next u ∧ u.pc = s.pc ∧ u.regs = s.regs ∧ u.csr = s.csr ∧ u.mem = s.mem ∧ u.minstret = s.minstret
        ∧ u.sleeping = true)

/-- 20 R134, 30 R172, R188, 60 R410, R424, 61 R461: a step with no instruction at pc, no trap due. A parcel that the
platform has not, gives exception 1 with its address (decision D17); bits that no row of the opcode table accepts give
exception 2 with the bits, a parcel zero-extended (decision D18); a parcel in the TIMER window stops the machine by name.
That a parcel in the ECLIC window is two byte registers with their current values, also just after a store to them, is the
model's choice (log 23; R145 allows the old bytes too); that a word with bits 4:2 all 1 is 32 bits long, so that its mtval
is these, is the model's reading (log 26). -/
def Obligations.FetchExceptions : Prop :=
  ∀ (s u : State) (low high : BitVec 16) (offset : Nat), GoesOn s u →
    (placeOf u.cfg u.pc = .memory → readable u.cfg u.pc.toNat 2 = false →
      step s = .next (takeException u.pc 1#12 u.pc u)) ∧
    (ParcelAt u u.pc low → low.extractLsb' 0 2 = 3#2 → placeOf u.cfg (u.pc + 2) = .memory →
      readable u.cfg (u.pc + 2).toNat 2 = false →
      step s = .next (takeException u.pc 1#12 (u.pc + 2) u)) ∧
    (ParcelAt u u.pc low → low.extractLsb' 0 2 ≠ 3#2 → decode16 low = none →
      step s = .next (takeException u.pc 2#12 (0#16 ++ low) u)) ∧
    (ParcelAt u u.pc low → low.extractLsb' 0 2 = 3#2 → ParcelAt u (u.pc + 2) high → decode32 (high ++ low) = none →
      step s = .next (takeException u.pc 2#12 (high ++ low) u)) ∧
    (placeOf u.cfg u.pc = .timer offset
        ∨ (ParcelAt u u.pc low ∧ low.extractLsb' 0 2 = 3#2 ∧ placeOf u.cfg (u.pc + 2) = .timer offset) →
      step s = .refused .fetchFromTimer)

/-! ## Integer, multiply, control -/

/-- 40 R211 to R221. -/
def Obligations.ImmediateResults : Prop :=
  ∀ (s : State) (rd rs1 : Reg) (imm : BitVec 12) (imm20 : BitVec 20) (n : BitVec 5) (a i : Word),
    a = getReg s rs1 → i = imm.signExtend 32 →
    (∃ t, exec (.lui rd imm20) s = .next t ∧ ComputesOnly 4 rd (imm20 ++ 0#12) s t) ∧
    (∃ t, exec (.auipc rd imm20) s = .next t ∧ ComputesOnly 4 rd (s.pc + (imm20 ++ 0#12)) s t) ∧
    (∃ t, exec (.addi rd rs1 imm) s = .next t ∧ ComputesOnly 4 rd (a + i) s t) ∧
    (∃ t, exec (.slti rd rs1 imm) s = .next t
      ∧ ComputesOnly 4 rd (if a.toInt < i.toInt then 1#32 else 0#32) s t) ∧
    (∃ t, exec (.sltiu rd rs1 imm) s = .next t
      ∧ ComputesOnly 4 rd (if a.toNat < i.toNat then 1#32 else 0#32) s t) ∧
    (∃ t, exec (.xori rd rs1 imm) s = .next t ∧ ComputesOnly 4 rd (a ^^^ i) s t) ∧
    (∃ t, exec (.ori rd rs1 imm) s = .next t ∧ ComputesOnly 4 rd (a ||| i) s t) ∧
    (∃ t, exec (.andi rd rs1 imm) s = .next t ∧ ComputesOnly 4 rd (a &&& i) s t) ∧
    (∃ t, exec (.slli rd rs1 n) s = .next t ∧ ComputesOnly 4 rd (BitVec.ofNat 32 (a.toNat * 2 ^ n.toNat)) s t) ∧
    (∃ t, exec (.srli rd rs1 n) s = .next t ∧ ComputesOnly 4 rd (BitVec.ofNat 32 (a.toNat / 2 ^ n.toNat)) s t) ∧
    (∃ t, exec (.srai rd rs1 n) s = .next t ∧ ComputesOnly 4 rd (BitVec.ofInt 32 (a.toInt / 2 ^ n.toNat)) s t)

/-- 40 R222 to R231. -/
def Obligations.RegisterResults : Prop :=
  ∀ (s : State) (rd rs1 rs2 : Reg) (a b : Word) (n : Nat),
    a = getReg s rs1 → b = getReg s rs2 → n = b.toNat % 32 →
    (∃ t, exec (.add rd rs1 rs2) s = .next t ∧ ComputesOnly 4 rd (a + b) s t) ∧
    (∃ t, exec (.sub rd rs1 rs2) s = .next t ∧ ComputesOnly 4 rd (a - b) s t) ∧
    (∃ t, exec (.sll rd rs1 rs2) s = .next t ∧ ComputesOnly 4 rd (BitVec.ofNat 32 (a.toNat * 2 ^ n)) s t) ∧
    (∃ t, exec (.slt rd rs1 rs2) s = .next t
      ∧ ComputesOnly 4 rd (if a.toInt < b.toInt then 1#32 else 0#32) s t) ∧
    (∃ t, exec (.sltu rd rs1 rs2) s = .next t
      ∧ ComputesOnly 4 rd (if a.toNat < b.toNat then 1#32 else 0#32) s t) ∧
    (∃ t, exec (.xor rd rs1 rs2) s = .next t ∧ ComputesOnly 4 rd (a ^^^ b) s t) ∧
    (∃ t, exec (.srl rd rs1 rs2) s = .next t ∧ ComputesOnly 4 rd (BitVec.ofNat 32 (a.toNat / 2 ^ n)) s t) ∧
    (∃ t, exec (.sra rd rs1 rs2) s = .next t ∧ ComputesOnly 4 rd (BitVec.ofInt 32 (a.toInt / 2 ^ n)) s t) ∧
    (∃ t, exec (.or rd rs1 rs2) s = .next t ∧ ComputesOnly 4 rd (a ||| b) s t) ∧
    (∃ t, exec (.and rd rs1 rs2) s = .next t ∧ ComputesOnly 4 rd (a &&& b) s t)

/-- 44 R310 to R319: the products as slices of 64-bit products, the quotients as the rules give them. -/
def Obligations.MulDivResults : Prop :=
  ∀ (s : State) (rd rs1 rs2 : Reg) (a b : Word), a = getReg s rs1 → b = getReg s rs2 →
    (∃ t, exec (.mul rd rs1 rs2) s = .next t ∧ ComputesOnly 4 rd (BitVec.ofNat 32 (a.toNat * b.toNat)) s t) ∧
    (∃ t, exec (.mulh rd rs1 rs2) s = .next t
      ∧ ComputesOnly 4 rd ((a.signExtend 64 * b.signExtend 64).extractLsb' 32 32) s t) ∧
    (∃ t, exec (.mulhsu rd rs1 rs2) s = .next t
      ∧ ComputesOnly 4 rd ((a.signExtend 64 * b.setWidth 64).extractLsb' 32 32) s t) ∧
    (∃ t, exec (.mulhu rd rs1 rs2) s = .next t
      ∧ ComputesOnly 4 rd ((a.setWidth 64 * b.setWidth 64).extractLsb' 32 32) s t) ∧
    (∃ t, exec (.div rd rs1 rs2) s = .next t
      ∧ ComputesOnly 4 rd (if b = 0#32 then 0xFFFFFFFF#32 else a.sdiv b) s t) ∧
    (∃ t, exec (.divu rd rs1 rs2) s = .next t
      ∧ ComputesOnly 4 rd (if b = 0#32 then 0xFFFFFFFF#32 else a / b) s t) ∧
    (∃ t, exec (.rem rd rs1 rs2) s = .next t ∧ ComputesOnly 4 rd (if b = 0#32 then a else a.srem b) s t) ∧
    (∃ t, exec (.remu rd rs1 rs2) s = .next t ∧ ComputesOnly 4 rd (if b = 0#32 then a else a % b) s t)

/-- 44 R318: quotient times divisor plus remainder is the dividend, for every divisor, and a remainder is smaller than a
non-zero divisor. -/
def Obligations.DivisionLaw : Prop :=
  ∀ (s : State) (rd rs1 rs2 : Reg) (a b : Word), a = getReg s rs1 → b = getReg s rs2 → rd ≠ 0#5 →
    ∃ q r qu ru, exec (.div rd rs1 rs2) s = .next q ∧ exec (.rem rd rs1 rs2) s = .next r
      ∧ exec (.divu rd rs1 rs2) s = .next qu ∧ exec (.remu rd rs1 rs2) s = .next ru
      ∧ getReg q rd * b + getReg r rd = a ∧ getReg qu rd * b + getReg ru rd = a
      ∧ (b ≠ 0#32 → (getReg r rd).toInt.natAbs < b.toInt.natAbs ∧ (getReg ru rd).toNat < b.toNat)

/-- 41 R240, R241, 46 R346, R357, R362, R365: the target, with bit 0 of a register target cleared, and the link. -/
def Obligations.JumpResults : Prop :=
  ∀ (s : State) (rd rs1 : Reg) (off21 : BitVec 21) (off12 imm : BitVec 12),
    (∃ t, exec (.jal rd off21) s = .next t
      ∧ ChangesOnly rd (s.pc + 4) (s.pc + off21.signExtend 32) s t) ∧
    (∃ t, exec (.jalr rd rs1 imm) s = .next t
      ∧ ChangesOnly rd (s.pc + 4) ((getReg s rs1 + imm.signExtend 32) &&& 0xFFFFFFFE#32) s t) ∧
    (∃ t, exec (.cJal off12) s = .next t ∧ ChangesOnly 1 (s.pc + 2) (s.pc + off12.signExtend 32) s t) ∧
    (∃ t, exec (.cJ off12) s = .next t ∧ ChangesOnly 0 0 (s.pc + off12.signExtend 32) s t) ∧
    (∃ t, exec (.cJr rs1) s = .next t ∧ ChangesOnly 0 0 (getReg s rs1 &&& 0xFFFFFFFE#32) s t) ∧
    (∃ t, exec (.cJalr rs1) s = .next t ∧ ChangesOnly 1 (s.pc + 2) (getReg s rs1 &&& 0xFFFFFFFE#32) s t)

/-- 41 R242 to R247, 46 R358, R359: the conditions as integers, and no register written. -/
def Obligations.BranchResults : Prop :=
  ∀ (s : State) (rs1 rs2 : Reg) (r : CReg) (off : BitVec 13) (off9 : BitVec 9) (a b c target target9 : Word),
    a = getReg s rs1 → b = getReg s rs2 → c = getReg s (0b01#2 ++ r) →
    target = s.pc + off.signExtend 32 → target9 = s.pc + off9.signExtend 32 →
    (∃ t, exec (.beq rs1 rs2 off) s = .next t ∧ ChangesOnly 0 0 (if a = b then target else s.pc + 4) s t) ∧
    (∃ t, exec (.bne rs1 rs2 off) s = .next t ∧ ChangesOnly 0 0 (if a ≠ b then target else s.pc + 4) s t) ∧
    (∃ t, exec (.blt rs1 rs2 off) s = .next t
      ∧ ChangesOnly 0 0 (if a.toInt < b.toInt then target else s.pc + 4) s t) ∧
    (∃ t, exec (.bge rs1 rs2 off) s = .next t
      ∧ ChangesOnly 0 0 (if b.toInt ≤ a.toInt then target else s.pc + 4) s t) ∧
    (∃ t, exec (.bltu rs1 rs2 off) s = .next t
      ∧ ChangesOnly 0 0 (if a.toNat < b.toNat then target else s.pc + 4) s t) ∧
    (∃ t, exec (.bgeu rs1 rs2 off) s = .next t
      ∧ ChangesOnly 0 0 (if b.toNat ≤ a.toNat then target else s.pc + 4) s t) ∧
    (∃ t, exec (.cBeqz r off9) s = .next t ∧ ChangesOnly 0 0 (if c = 0#32 then target9 else s.pc + 2) s t) ∧
    (∃ t, exec (.cBnez r off9) s = .next t ∧ ChangesOnly 0 0 (if c ≠ 0#32 then target9 else s.pc + 2) s t)

/-- 46 R341 to R366: the compressed instructions that compute; with x0 as destination (a hint) nothing is written. -/
def Obligations.CompressedResults : Prop :=
  ∀ (s : State) (rd rs2 : Reg) (d r : CReg) (imm : BitVec 6) (n : BitVec 5) (u10 : BitVec 10) (x y : Word),
    x = getReg s (0b01#2 ++ d) → y = getReg s (0b01#2 ++ r) →
    (∃ t, exec (.cAddi4spn d u10) s = .next t
      ∧ ComputesOnly 2 (0b01#2 ++ d) (getReg s 2 + u10.setWidth 32) s t) ∧
    (∃ t, exec (.cNop imm) s = .next t ∧ ComputesOnly 2 0 0 s t) ∧
    (∃ t, exec (.cAddi rd imm) s = .next t ∧ ComputesOnly 2 rd (getReg s rd + imm.signExtend 32) s t) ∧
    (∃ t, exec (.cLi rd imm) s = .next t ∧ ComputesOnly 2 rd (imm.signExtend 32) s t) ∧
    (∃ t, exec (.cAddi16sp u10) s = .next t ∧ ComputesOnly 2 2 (getReg s 2 + u10.signExtend 32) s t) ∧
    (∃ t, exec (.cLui rd imm) s = .next t ∧ ComputesOnly 2 rd ((imm ++ 0#12).signExtend 32) s t) ∧
    (∃ t, exec (.cSrli d n) s = .next t
      ∧ ComputesOnly 2 (0b01#2 ++ d) (BitVec.ofNat 32 (x.toNat / 2 ^ n.toNat)) s t) ∧
    (∃ t, exec (.cSrai d n) s = .next t
      ∧ ComputesOnly 2 (0b01#2 ++ d) (BitVec.ofInt 32 (x.toInt / 2 ^ n.toNat)) s t) ∧
    (∃ t, exec (.cAndi d imm) s = .next t ∧ ComputesOnly 2 (0b01#2 ++ d) (x &&& imm.signExtend 32) s t) ∧
    (∃ t, exec (.cSub d r) s = .next t ∧ ComputesOnly 2 (0b01#2 ++ d) (x - y) s t) ∧
    (∃ t, exec (.cXor d r) s = .next t ∧ ComputesOnly 2 (0b01#2 ++ d) (x ^^^ y) s t) ∧
    (∃ t, exec (.cOr d r) s = .next t ∧ ComputesOnly 2 (0b01#2 ++ d) (x ||| y) s t) ∧
    (∃ t, exec (.cAnd d r) s = .next t ∧ ComputesOnly 2 (0b01#2 ++ d) (x &&& y) s t) ∧
    (∃ t, exec (.cSlli rd n) s = .next t
      ∧ ComputesOnly 2 rd (BitVec.ofNat 32 ((getReg s rd).toNat * 2 ^ n.toNat)) s t) ∧
    (∃ t, exec (.cMv rd rs2) s = .next t ∧ ComputesOnly 2 rd (getReg s rs2) s t) ∧
    (∃ t, exec (.cAdd rd rs2) s = .next t ∧ ComputesOnly 2 rd (getReg s rd + getReg s rs2) s t)

/-! ## Loads, stores, fences -/

/-- 42 R258 to R262, 20 R131, R132: loads from RAM or ROM, byte order and extension. -/
def Obligations.LoadResults : Prop :=
  ∀ (s : State) (rd rs1 : Reg) (imm : BitVec 12) (a : Word), a = getReg s rs1 + imm.signExtend 32 →
    (AllMapped s.cfg a 1 →
      (∃ t, exec (.lb rd rs1 imm) s = .next t
        ∧ ComputesOnly 4 rd ((s.mem.read a.toNat).signExtend 32) s t) ∧
      (∃ t, exec (.lbu rd rs1 imm) s = .next t
        ∧ ComputesOnly 4 rd ((s.mem.read a.toNat).setWidth 32) s t)) ∧
    (AllMapped s.cfg a 2 → a.toNat % 2 = 0 →
      (∃ t, exec (.lh rd rs1 imm) s = .next t ∧ ComputesOnly 4 rd ((halfAt s a).signExtend 32) s t) ∧
      (∃ t, exec (.lhu rd rs1 imm) s = .next t ∧ ComputesOnly 4 rd ((halfAt s a).setWidth 32) s t)) ∧
    (AllMapped s.cfg a 4 → a.toNat % 4 = 0 →
      ∃ t, exec (.lw rd rs1 imm) s = .next t ∧ ComputesOnly 4 rd (wordAt s a) s t)

/-- 42 R264 to R266, 20 R131, R133, 45 R325 (d): stores to RAM; the reservation stays. -/
def Obligations.StoreResults : Prop :=
  ∀ (s : State) (rs1 rs2 : Reg) (imm : BitVec 12) (a : Word), s.mem.wf = true →
    a = getReg s rs1 + imm.signExtend 32 →
    (AllRam s.cfg a 1 → ∃ t, exec (.sb rs1 rs2 imm) s = .next t ∧ StoresOnly 4 a 1 (getReg s rs2) s t) ∧
    (AllRam s.cfg a 2 → a.toNat % 2 = 0 →
      ∃ t, exec (.sh rs1 rs2 imm) s = .next t ∧ StoresOnly 4 a 2 (getReg s rs2) s t) ∧
    (AllRam s.cfg a 4 → a.toNat % 4 = 0 →
      ∃ t, exec (.sw rs1 rs2 imm) s = .next t ∧ StoresOnly 4 a 4 (getReg s rs2) s t)

/-- 46 R342, R343, R361, R367: the compressed loads and stores on the platform's memory. -/
def Obligations.CompressedLoadsAndStores : Prop :=
  ∀ (s : State) (rd rs2 : Reg) (d b : CReg) (u7 : BitVec 7) (u8 : BitVec 8) (a sp : Word), s.mem.wf = true →
    a = getReg s (0b01#2 ++ b) + u7.setWidth 32 → sp = getReg s 2 + u8.setWidth 32 →
    (AllMapped s.cfg a 4 → a.toNat % 4 = 0 →
      ∃ t, exec (.cLw d b u7) s = .next t ∧ ComputesOnly 2 (0b01#2 ++ d) (wordAt s a) s t) ∧
    (AllMapped s.cfg sp 4 → sp.toNat % 4 = 0 →
      ∃ t, exec (.cLwsp rd u8) s = .next t ∧ ComputesOnly 2 rd (wordAt s sp) s t) ∧
    (AllRam s.cfg a 4 → a.toNat % 4 = 0 →
      ∃ t, exec (.cSw b d u7) s = .next t ∧ StoresOnly 2 a 4 (getReg s (0b01#2 ++ d)) s t) ∧
    (AllRam s.cfg sp 4 → sp.toNat % 4 = 0 →
      ∃ t, exec (.cSwsp rs2 u8) s = .next t ∧ StoresOnly 2 sp 4 (getReg s rs2) s t)

/-- 20 R135, 42 R255, R273, 45 R323, 46 R340: a misaligned read takes exception 4 with the effective address. -/
def Obligations.MisalignedReads : Prop :=
  ∀ (s : State) (rd rs1 : Reg) (d b : CReg) (imm : BitVec 12) (u7 : BitVec 7) (u8 : BitVec 8) (aq rl : BitVec 1)
    (a c sp : Word), a = getReg s rs1 + imm.signExtend 32 → c = getReg s (0b01#2 ++ b) + u7.setWidth 32 →
    sp = getReg s 2 + u8.setWidth 32 →
    (a.toNat % 2 ≠ 0 →
      exec (.lh rd rs1 imm) s = .next (takeException s.pc 4#12 a s)
        ∧ exec (.lhu rd rs1 imm) s = .next (takeException s.pc 4#12 a s)) ∧
    (a.toNat % 4 ≠ 0 → exec (.lw rd rs1 imm) s = .next (takeException s.pc 4#12 a s)) ∧
    (c.toNat % 4 ≠ 0 → exec (.cLw d b u7) s = .next (takeException s.pc 4#12 c s)) ∧
    (sp.toNat % 4 ≠ 0 → exec (.cLwsp rd u8) s = .next (takeException s.pc 4#12 sp s)) ∧
    ((getReg s rs1).toNat % 4 ≠ 0 →
      exec (.lrW rd rs1 aq rl) s = .next (takeException s.pc 4#12 (getReg s rs1) s))

/-- 20 R135, 42 R255, 45 R324, R327, 43 R300, 46 R340: a misaligned write or atomic takes exception 6 with the effective
address. -/
def Obligations.MisalignedWrites : Prop :=
  ∀ (s : State) (rd rs1 rs2 : Reg) (d b : CReg) (imm : BitVec 12) (u7 : BitVec 7) (u8 : BitVec 8) (aq rl : BitVec 1)
    (n : BitVec 5) (a c sp m : Word), a = getReg s rs1 + imm.signExtend 32 →
    c = getReg s (0b01#2 ++ b) + u7.setWidth 32 → sp = getReg s 2 + u8.setWidth 32 → m = getReg s rs1 →
    (a.toNat % 2 ≠ 0 → exec (.sh rs1 rs2 imm) s = .next (takeException s.pc 6#12 a s)) ∧
    (a.toNat % 4 ≠ 0 → exec (.sw rs1 rs2 imm) s = .next (takeException s.pc 6#12 a s)) ∧
    (c.toNat % 4 ≠ 0 → exec (.cSw b d u7) s = .next (takeException s.pc 6#12 c s)) ∧
    (sp.toNat % 4 ≠ 0 → exec (.cSwsp rs2 u8) s = .next (takeException s.pc 6#12 sp s)) ∧
    (m.toNat % 4 ≠ 0 →
      ∀ i ∈ [Instr.scW rd rs1 rs2 aq rl, .amoswapW rd rs1 rs2 aq rl, .amoaddW rd rs1 rs2 aq rl,
          .amoxorW rd rs1 rs2 aq rl, .amoandW rd rs1 rs2 aq rl, .amoorW rd rs1 rs2 aq rl,
          .amominW rd rs1 rs2 aq rl, .amomaxW rd rs1 rs2 aq rl, .amominuW rd rs1 rs2 aq rl,
          .amomaxuW rd rs1 rs2 aq rl],
        exec i s = .next (takeException s.pc 6#12 m s)) ∧
    ((getReg s 2).toNat % 4 ≠ 0 → s.priv = .machine →
      ∀ csr ∈ [0x7EB#12, 0x7EE#12, 0x7EF#12],
        exec (.csrrwi 0 n csr) s = .next (takeException s.pc 6#12 (getReg s 2 + 4 * n.setWidth 32) s))

/-- 20 R139, 60 R420, 45 R323: a load of any form, or lr.w, that the platform answers with an error completes, with some
value in rd, and one more error waits to be reported; no exception is taken. The value is a free value, and that lr.w still
makes the reservation is the model's choice (log 9). -/
def Obligations.FailingLoadCompletes : Prop :=
  ∀ (s : State) (rd rs1 : Reg) (imm : BitVec 12) (d b : CReg) (u7 : BitVec 7) (u8 : BitVec 8) (aq rl : BitVec 1)
    (a : Word), a = getReg s rs1 →
    (∀ p ∈ loadForms s rd rs1 imm d b u7 u8, placeOf s.cfg p.addr = .memory → p.addr.toNat % p.bytes = 0 →
      readable s.cfg p.addr.toNat p.bytes = false →
      ∃ t v, exec p.instr s = .next t ∧ t.errorReports = s.errorReports + 1 ∧ Wrote p.rd v t ∧ SameRegsBut p.rd s t
        ∧ t.pc = s.pc + p.len ∧ t.minstret = countRetired s ∧ SameMemory s t ∧ SameControl s t ∧ SameDevices s t
        ∧ t.storeLog = s.storeLog) ∧
    (placeOf s.cfg a = .memory → a.toNat % 4 = 0 → readable s.cfg a.toNat 4 = false →
      ∃ t v, exec (.lrW rd rs1 aq rl) s = .next t ∧ t.errorReports = s.errorReports + 1 ∧ Wrote rd v t
        ∧ SameRegsBut rd s t ∧ t.pc = s.pc + 4 ∧ t.minstret = countRetired s ∧ SameMemory s t ∧ SameControl s t
        ∧ t.timer = s.timer ∧ t.eclic = s.eclic ∧ t.reservation = some a ∧ t.storeLog = s.storeLog)

/-- 20 R139, 45 R324, R327, 43 R300: a store of any form, a push register, sc.w or an AMO that the platform answers with an
error completes and is reported once; no exception is taken. R139 leaves the effect on memory open: that bytes outside the
access, and bytes of it that the platform does not have, keep their values, that the others are free, and that sc.w gives
0, is the model's choice (log 10), and so is that an AMO reports one error and its value is free (log 29). An sc.w without
its reservation makes no access. -/
def Obligations.FailingStoreCompletes : Prop :=
  ∀ (s : State) (rd rs1 rs2 : Reg) (imm : BitVec 12) (d b : CReg) (u7 : BitVec 7) (u8 : BitVec 8) (n : BitVec 5)
    (aq rl : BitVec 1) (a : Word), a = getReg s rs1 →
    (∀ p ∈ storeForms s rs1 rs2 imm d b u7 u8 n, placeOf s.cfg p.addr = .memory → p.addr.toNat % p.bytes = 0 →
      writable s.cfg p.addr.toNat p.bytes = false →
      ∃ t, exec p.instr s = .next t ∧ FailsWriting p.len p.addr p.bytes s t ∧ SameRegs s t
        ∧ t.reservation = s.reservation) ∧
    (placeOf s.cfg a = .memory → a.toNat % 4 = 0 →
      (s.reservation = some a → writable s.cfg a.toNat 4 = false →
        ∃ t, exec (.scW rd rs1 rs2 aq rl) s = .next t ∧ FailsWriting 4 a 4 s t ∧ Wrote rd 0#32 t ∧ SameRegsBut rd s t
          ∧ t.reservation = none) ∧
      (s.reservation ≠ some a →
        ∃ t, exec (.scW rd rs1 rs2 aq rl) s = .next t ∧ ComputesOnly 4 rd 1#32 { s with reservation := none } t) ∧
      (readable s.cfg a.toNat 4 = false ∨ writable s.cfg a.toNat 4 = false →
        ∀ i ∈ [Instr.amoswapW rd rs1 rs2 aq rl, .amoaddW rd rs1 rs2 aq rl, .amoxorW rd rs1 rs2 aq rl,
            .amoandW rd rs1 rs2 aq rl, .amoorW rd rs1 rs2 aq rl, .amominW rd rs1 rs2 aq rl, .amomaxW rd rs1 rs2 aq rl,
            .amominuW rd rs1 rs2 aq rl, .amomaxuW rd rs1 rs2 aq rl],
          ∃ t v, exec i s = .next t ∧ FailsWriting 4 a 4 s t ∧ Wrote rd v t ∧ SameRegsBut rd s t
            ∧ t.reservation = s.reservation))

/-- 42 R270, R271, 20 R144, R145: fence changes nothing; a fetch sees a parcel that no store since the last fence.i
touched exactly as memory holds it, and after fence.i every parcel. -/
def Obligations.FenceResults : Prop :=
  ∀ (s : State) (fm pred succ : BitVec 4) (imm : BitVec 12) (rs1 rd : Reg),
    (∃ t, exec (.fence fm pred succ rs1 rd) s = .next t ∧ ComputesOnly 4 0 0 s t) ∧
    (∃ t, exec (.fenceI imm rs1 rd) s = .next t ∧ ComputesOnly 4 0 0 { s with storeLog := [] } t
      ∧ ∀ (j a : Nat), parcelSeen t j a = t.mem.read (a + 1) ++ t.mem.read a) ∧
    (∀ (j a : Nat), (∀ cells ∈ s.storeLog, ∀ cell ∈ cells, cell.1 ≠ a ∧ cell.1 ≠ a + 1) →
      parcelSeen s j a = s.mem.read (a + 1) ++ s.mem.read a)

/-! ## The devices -/

/-- 61 R460 to R465: word loads and stores of the TIMER window by its register map, in every form; the interrupt levels
follow. -/
def Obligations.TimerWordAccess : Prop :=
  ∀ (s : State) (rd rs1 rs2 : Reg) (imm : BitVec 12) (d b : CReg) (u7 : BitVec 7) (u8 : BitVec 8) (n : BitVec 5) (off : Nat),
    (∀ p ∈ loadForms s rd rs1 imm d b u7 u8, p.bytes = 4 → p.addr.toNat % 4 = 0 → placeOf s.cfg p.addr = .timer off →
      ∃ t, exec p.instr s = .next t ∧ ComputesOnly p.len p.rd
        (if off = 0 then s.timer.mtime.extractLsb' 0 32 else if off = 4 then s.timer.mtime.extractLsb' 32 32
          else if off = 8 then s.timer.mtimecmp.extractLsb' 0 32
          else if off = 12 then s.timer.mtimecmp.extractLsb' 32 32
          else if off = 0xFF8 then (BitVec.ofBool s.timer.timestop).setWidth 32
          else if off = 0xFFC then (BitVec.ofBool s.timer.msip).setWidth 32 else 0#32) s t) ∧
    (∀ p ∈ storeForms s rs1 rs2 imm d b u7 u8 n, p.bytes = 4 → p.addr.toNat % 4 = 0 → placeOf s.cfg p.addr = .timer off →
      ∃ t, exec p.instr s = .next t ∧ StoresToDevice p.len s t ∧ t.eclic = s.eclic
        ∧ t.timer.mtime = (if off = 0 then s.timer.mtime.extractLsb' 32 32 ++ p.value
            else if off = 4 then p.value ++ s.timer.mtime.extractLsb' 0 32 else s.timer.mtime)
        ∧ t.timer.mtimecmp = (if off = 8 then s.timer.mtimecmp.extractLsb' 32 32 ++ p.value
            else if off = 12 then p.value ++ s.timer.mtimecmp.extractLsb' 0 32 else s.timer.mtimecmp)
        ∧ t.timer.timestop = (if off = 0xFF8 then p.value.getLsbD 0 else s.timer.timestop)
        ∧ t.timer.msip = (if off = 0xFFC then p.value.getLsbD 0 else s.timer.msip))

/-- 61 R461, 45 R339, decision D22: what the device windows do not support stops by name, an aligned access only. -/
def Obligations.DeviceRefusals : Prop :=
  ∀ (s : State) (rd rs1 rs2 : Reg) (imm : BitVec 12) (a : Word) (off : Nat) (aq rl : BitVec 1),
    a = getReg s rs1 + imm.signExtend 32 →
    (placeOf s.cfg a = .timer off → a.toNat % 2 = 0 →
      ∀ i ∈ [Instr.lb rd rs1 imm, .lbu rd rs1 imm, .lh rd rs1 imm, .lhu rd rs1 imm, .sb rs1 rs2 imm,
          .sh rs1 rs2 imm], exec i s = .refused .timerAccessSize) ∧
    (placeOf s.cfg (getReg s rs1) ≠ .memory → (getReg s rs1).toNat % 4 = 0 →
      ∀ i ∈ [Instr.lrW rd rs1 aq rl, .scW rd rs1 rs2 aq rl, .amoswapW rd rs1 rs2 aq rl, .amoaddW rd rs1 rs2 aq rl,
          .amoxorW rd rs1 rs2 aq rl, .amoandW rd rs1 rs2 aq rl, .amoorW rd rs1 rs2 aq rl,
          .amominW rd rs1 rs2 aq rl, .amomaxW rd rs1 rs2 aq rl, .amominuW rd rs1 rs2 aq rl,
          .amomaxuW rd rs1 rs2 aq rl], exec i s = .refused .atomicOnDevice)

/-- 61 R473, R474, R478 to R482: aligned byte, halfword and word loads and stores of every form inside the block of an
ECLIC source, from byte k of it on: clicintip, clicintie, clicintattr, clicintctl at k = 0 to 3. The constant bits read as
constants and ignore writes. The pending bit takes a store only if the source was edge-triggered before it: that a wider
store writes the lowest address first is the model's choice (log 38). -/
def Obligations.EclicSourceAccess : Prop :=
  ∀ (s : State) (rd rs1 rs2 : Reg) (imm : BitVec 12) (d b : CReg) (u7 : BitVec 7) (u8 : BitVec 8) (n : BitVec 5) (i k : Nat)
    (src : Source), s.eclic.sources[i]? = some src → k < 4 →
    (∀ p ∈ loadForms s rd rs1 imm d b u7 u8, placeOf s.cfg p.addr = .eclic (0x1000 + 4 * i + k) →
      k + p.bytes ≤ 4 → p.addr.toNat % p.bytes = 0 →
      ∃ t, exec p.instr s = .next t ∧ ComputesOnly p.len p.rd (p.value (sourceBlock src >>> (8 * k))) s t) ∧
    (∀ p ∈ storeForms s rs1 rs2 imm d b u7 u8 n, placeOf s.cfg p.addr = .eclic (0x1000 + 4 * i + k) →
      k + p.bytes ≤ 4 → p.addr.toNat % p.bytes = 0 →
      ∃ t, exec p.instr s = .next t ∧ StoresToDevice p.len s t ∧ t.timer = s.timer
        ∧ t.eclic.nlbits = s.eclic.nlbits ∧ t.eclic.mth = s.eclic.mth
        ∧ (∀ j : Nat, j ≠ i → t.eclic.sources[j]? = s.eclic.sources[j]?)
        ∧ t.eclic.sources[i]? = some (storedSource s.cfg src k p.bytes p.value))

/-- 61 R473 to R477: aligned byte, halfword and word accesses of every form to cliccfg, clicinfo, mth and the offsets with
no register, below the blocks of the sources and above them. Each byte is read and written by its own rule. That a byte of
an access beyond the window's end, which an ECLIC_BASE that is no multiple of 4 makes possible, reads 0 and ignores stores
is the model's choice (log 39). -/
def Obligations.EclicGlobalAccess : Prop :=
  ∀ (s : State) (rd rs1 rs2 : Reg) (imm : BitVec 12) (d b : CReg) (u7 : BitVec 7) (u8 : BitVec 8) (n : BitVec 5) (off : Nat)
    (g : Nat → Byte), g = (fun k => globalByte s.cfg s.eclic (off + k)) →
    (∀ p ∈ loadForms s rd rs1 imm d b u7 u8, placeOf s.cfg p.addr = .eclic off → p.addr.toNat % p.bytes = 0 →
      off + p.bytes ≤ 0x1000 ∨ 0x1000 + 4 * s.eclic.sources.length ≤ off →
      ∃ t, exec p.instr s = .next t ∧ ComputesOnly p.len p.rd (p.value (g 3 ++ g 2 ++ g 1 ++ g 0)) s t) ∧
    (∀ p ∈ storeForms s rs1 rs2 imm d b u7 u8 n, placeOf s.cfg p.addr = .eclic off → p.addr.toNat % p.bytes = 0 →
      ∃ t, exec p.instr s = .next t ∧ StoresToDevice p.len s t ∧ t.timer = s.timer
        ∧ (off + p.bytes ≤ 0x1000 ∨ 0x1000 + 4 * s.eclic.sources.length ≤ off → t.eclic.sources = s.eclic.sources)
        ∧ t.eclic.nlbits = (if off = 0 then p.value.extractLsb' 1 4 else s.eclic.nlbits)
        ∧ t.eclic.mth
            = (if off ≤ 0xB ∧ 0xB < off + p.bytes then p.value.extractLsb' (8 * (0xB - off)) 8 else s.eclic.mth))

/-- 61 R483, R487: level and priority of a control byte, the top n bits and the rest, filled with ones; the order by
level and priority is the order of the control bytes. -/
def Obligations.LevelAndPriority : Prop :=
  ∀ (e : Eclic) (c : Byte) (n : Nat), n = min e.nlbits.toNat 8 →
    (levelOf e c).toNat = c.toNat / 2 ^ (8 - n) * 2 ^ (8 - n) + (2 ^ (8 - n) - 1)
      ∧ (priorityOf e c).toNat = c.toNat % 2 ^ (8 - n) * 2 ^ n + (2 ^ n - 1)
      ∧ ∀ b : Byte, ((levelOf e b).toNat < (levelOf e c).toNat
          ∨ (levelOf e b = levelOf e c ∧ (priorityOf e b).toNat < (priorityOf e c).toNat)) ↔ b.toNat < c.toNat

/-- 61 R487: the request is the enabled and pending source with the greatest (level, priority, id), if its level is above
mth; there is none exactly if no source is enabled and pending, or the greatest is not above mth. -/
def Obligations.ArbitrationPicksGreatest : Prop :=
  ∀ e : Eclic,
    (∀ w : Candidate, eclicRequest e = some w →
      e.mth.toNat < w.level.toNat ∧
      ∃ src, e.sources[w.id]? = some src ∧ src.ie = true ∧ src.ip = true ∧ w.level = levelOf e src.ctl
        ∧ w.priority = priorityOf e src.ctl ∧ w.shv = src.shv
        ∧ ∀ (j : Nat) (other : Source), e.sources[j]? = some other → other.ie = true → other.ip = true → j ≠ w.id →
            (levelOf e other.ctl).toNat < w.level.toNat
              ∨ (levelOf e other.ctl = w.level
                  ∧ ((priorityOf e other.ctl).toNat < w.priority.toNat
                      ∨ (priorityOf e other.ctl = w.priority ∧ j < w.id)))) ∧
    (eclicRequest e = none →
      ∀ (j : Nat) (src : Source), e.sources[j]? = some src → src.ie = true → src.ip = true →
        (levelOf e src.ctl).toNat ≤ e.mth.toNat)

/-- 61 R462 to R465, R471, R481, 60 R430: what one sampling does to a source, to mtime, to mcycle and to the NMI request.
That source 7 is sampled with mtime after the ticks, and that the counters advance at the boundary by the bits in force
there, are the model's choices (log 7, log 35). -/
def Obligations.SamplingRules : Prop :=
  ∀ (s u : State) (e : EnvSample), e = nextSample s → u = sample s →
    u.timer.mtime = (if s.timer.timestop then s.timer.mtime else s.timer.mtime + BitVec.ofNat 64 e.ticks)
      ∧ u.timer.mtimecmp = s.timer.mtimecmp ∧ u.timer.msip = s.timer.msip ∧ u.timer.timestop = s.timer.timestop
      ∧ u.mcycle = (if s.csr.inhibitCy then s.mcycle else s.mcycle + BitVec.ofNat 64 e.cycles)
      ∧ u.nmiPending = (s.nmiPending || (!s.nmiPrev && e.nmi)) ∧ u.nmiPrev = e.nmi ∧ u.rxEvt = e.rxEvt
      ∧ u.pc = s.pc ∧ u.regs = s.regs ∧ u.csr = s.csr ∧ u.mem = s.mem ∧ u.minstret = s.minstret ∧ u.priv = s.priv
      ∧ u.eclic.sources.length = s.eclic.sources.length ∧ u.eclic.mth = s.eclic.mth
      ∧ u.eclic.nlbits = s.eclic.nlbits
      ∧ ∀ (i : Nat) (src : Source), s.eclic.sources[i]? = some src → i ≠ 17 →
          ∃ input : Bool,
            (input = true ↔ (i = 3 ∧ s.timer.msip = true)
              ∨ (i = 7 ∧ u.timer.mtimecmp.toNat ≤ u.timer.mtime.toNat) ∨ (19 ≤ i ∧ i ∈ e.high)) ∧
            u.eclic.sources[i]? = some { src with
              prev := input
              ip := if src.edge = false then input
                    else if src.falling then src.ip || (src.prev && !input) else src.ip || (!src.prev && input) }

/-- 61 R472: data access errors reach the pending bit of an edge-triggered source 17 as pulses, one report each, and a
boundary that reports one leaves one fewer outstanding. When a report is delivered is the environment's (log 12). -/
def Obligations.ErrorReportPulse : Prop :=
  ∀ (s u : State) (src : Source), u = sample s → s.eclic.sources[17]? = some src →
    ((nextSample s).deliverError = true → 0 < s.errorReports → src.prev = false →
      u.errorReports = s.errorReports - 1
        ∧ (src.edge = true → src.falling = false → ∃ x, u.eclic.sources[17]? = some x ∧ x.ip = true ∧ x.prev = true)) ∧
    (s.errorReports = 0 ∨ src.prev = true →
      u.errorReports = s.errorReports ∧ ∃ x, u.eclic.sources[17]? = some x ∧ x.prev = false)

/-! ## Atomics -/

/-- 45 R323: lr.w on RAM or ROM loads the word and reserves it. -/
def Obligations.LoadReserveResult : Prop :=
  ∀ (s : State) (rd rs1 : Reg) (aq rl : BitVec 1) (a : Word), a = getReg s rs1 → a.toNat % 4 = 0 →
    AllMapped s.cfg a 4 →
    ∃ t, exec (.lrW rd rs1 aq rl) s = .next t ∧ ComputesOnly 4 rd (wordAt s a) { s with reservation := some a } t

/-- 45 R324: sc.w stores and gives 0 exactly with the reservation of its word, else gives 1 and stores nothing; the
reservation ends either way. -/
def Obligations.StoreConditionalResult : Prop :=
  ∀ (s : State) (rd rs1 rs2 : Reg) (aq rl : BitVec 1) (a : Word), s.mem.wf = true → a = getReg s rs1 →
    a.toNat % 4 = 0 → AllRam s.cfg a 4 →
    (s.reservation = some a →
      ∃ t, exec (.scW rd rs1 rs2 aq rl) s = .next t ∧ SwapsOnly rd 0#32 a (getReg s rs2) none s t) ∧
    (s.reservation ≠ some a →
      ∃ t, exec (.scW rd rs1 rs2 aq rl) s = .next t ∧ ComputesOnly 4 rd 1#32 { s with reservation := none } t)

/-- 45 R325 to R337: each AMO on RAM gives the old word and stores the combination; the reservation stays. -/
def Obligations.AmoResults : Prop :=
  ∀ (s : State) (rd rs1 rs2 : Reg) (aq rl : BitVec 1) (a x v : Word), s.mem.wf = true → a = getReg s rs1 →
    a.toNat % 4 = 0 → AllRam s.cfg a 4 → x = wordAt s a → v = getReg s rs2 →
    ∀ p ∈ [(Instr.amoswapW rd rs1 rs2 aq rl, v), (.amoaddW rd rs1 rs2 aq rl, x + v),
        (.amoxorW rd rs1 rs2 aq rl, x ^^^ v), (.amoandW rd rs1 rs2 aq rl, x &&& v),
        (.amoorW rd rs1 rs2 aq rl, x ||| v), (.amominW rd rs1 rs2 aq rl, if x.toInt < v.toInt then x else v),
        (.amomaxW rd rs1 rs2 aq rl, if v.toInt < x.toInt then x else v),
        (.amominuW rd rs1 rs2 aq rl, if x.toNat < v.toNat then x else v),
        (.amomaxuW rd rs1 rs2 aq rl, if v.toNat < x.toNat then x else v)],
      ∃ t, exec p.1 s = .next t ∧ SwapsOnly rd x a p.2 s.reservation s t

/-! ## Exceptions and returns -/

/-- 60 R423, R425: exception entry, line by line, and nothing else changes. -/
def Obligations.ExceptionEntry : Prop :=
  ∀ (s : State) (epc tval : Word) (code : BitVec 12), TookException epc code tval s (takeException epc code tval s)

/-- 60 R425: the push of the state stack, on exception and NMI entry and not on interrupt entry. -/
def Obligations.StateStackPush : Prop :=
  ∀ (s t : State) (epc tval : Word) (code : BitVec 12) (w : Candidate),
    (t = takeException epc code tval s ∨ t = enterNmi s →
      t.csr.save2 = s.csr.save1 ∧ t.csr.save1.epc = s.csr.mepc ∧ t.csr.save1.cause = csrRead s .mcause
        ∧ t.csr.save1.mpie = s.csr.mpie ∧ t.csr.save1.mpp = s.csr.mpp ∧ t.csr.save1.ptyp = s.csr.ptyp
        ∧ t.csr.mil = s.csr.mil ∧ t.csr.mscratch = s.csr.mscratch) ∧
    (t = interruptEntered w s → t.csr.save1 = s.csr.save1 ∧ t.csr.save2 = s.csr.save2)

/-- 43 R275, R276, 46 R364: ecall, ebreak and c.ebreak take their exceptions with mtval 0. -/
def Obligations.TrapInstructions : Prop :=
  ∀ s : State,
    (s.priv = .user → exec .ecall s = .next (takeException s.pc 8#12 0#32 s)) ∧
    (s.priv = .machine → exec .ecall s = .next (takeException s.pc 11#12 0#32 s)) ∧
    exec .ebreak s = .next (takeException s.pc 3#12 0#32 s) ∧
    exec .cEbreak s = .next (takeException s.pc 3#12 0#32 s)

/-- 60 R403: mret in User Mode raises IllegalInstruction(0x30200073) and has no other effect. -/
def Obligations.MretInUserMode : Prop :=
  ∀ s : State, s.priv = .user → exec .mret s = .next (takeException s.pc 2#12 0x30200073#32 s)

/-- 60 R440, R441: mret with mcause.INTERRUPT = 0 and a legal MPP, and a legal MPP1. -/
def Obligations.MretFromException : Prop :=
  ∀ s : State, s.priv = .machine → s.csr.causeInterrupt = false →
    (s.csr.mpp = 3#2 ∨ (s.csr.mpp = 0#2 ∧ s.cfg.hasUmode = true)) →
    (s.csr.save1.mpp = 3#2 ∨ (s.csr.save1.mpp = 0#2 ∧ s.cfg.hasUmode = true)) →
    ∃ t, exec .mret s = .next t ∧ t.pc = s.csr.mepc ∧ privCode t.priv = s.csr.mpp ∧ t.reservation = none
      ∧ t.minstret = countRetired s
      ∧ t.csr = { s.csr with
          mie := s.csr.mpie, typ := s.csr.ptyp
          mepc := s.csr.save1.epc
          causeInterrupt := s.csr.save1.cause.getLsbD 31, causeMinhv := s.csr.save1.cause.getLsbD 30
          causeMpil := s.csr.save1.cause.extractLsb' 16 8, causeExccode := s.csr.save1.cause.extractLsb' 0 12
          mpie := s.csr.save1.mpie, mpp := s.csr.save1.mpp, ptyp := s.csr.save1.ptyp
          save1 := s.csr.save2 }
      ∧ SameRegs s t ∧ SameMemory s t ∧ SameOutside s t ∧ t.timer = s.timer ∧ t.eclic = s.eclic
      ∧ t.errorReports = s.errorReports ∧ t.storeLog = s.storeLog

/-- 60 R440, R442: mret with mcause.INTERRUPT = 1 and a legal MPP. That this holds whatever mtvec.MODE is the model's
choice (log 40). -/
def Obligations.MretFromInterrupt : Prop :=
  ∀ s : State, s.priv = .machine → s.csr.causeInterrupt = true →
    (s.csr.mpp = 3#2 ∨ (s.csr.mpp = 0#2 ∧ s.cfg.hasUmode = true)) →
    ∃ t, exec .mret s = .next t ∧ t.pc = s.csr.mepc ∧ privCode t.priv = s.csr.mpp ∧ t.reservation = none
      ∧ t.minstret = countRetired s
      ∧ t.csr = { s.csr with
          mie := s.csr.mpie, typ := s.csr.ptyp, mil := s.csr.causeMpil, mpie := true
          mpp := if s.cfg.hasUmode then 0#2 else 3#2 }
      ∧ SameRegs s t ∧ SameMemory s t ∧ SameOutside s t ∧ t.timer = s.timer ∧ t.eclic = s.eclic
      ∧ t.errorReports = s.errorReports ∧ t.storeLog = s.storeLog

/-- 60 R423, R425, R440, R441, R443: an exception followed at once by mret gives back the pc, the mode and every CSR
field but mtval and the lost level of the stack. -/
def Obligations.TrapThenReturn : Prop :=
  ∀ (s : State) (code : BitVec 12) (tval : Word), s.Inv → (s.csr.mpp = 0#2 → s.cfg.hasUmode = true) →
    ∃ t, exec .mret (takeException s.pc code tval s) = .next t ∧ t.pc = s.pc ∧ t.priv = s.priv
      ∧ t.csr = { s.csr with mtval := tval, save2 := s.csr.save1 } ∧ SameRegs s t ∧ SameMemory s t

/-- 43 R278, 61 R500, R501: wfi sleeps with the pc after it, in both modes, and core_sleep_value shows SLEEPVALUE. -/
def Obligations.WfiSleeps : Prop :=
  ∀ s : State, ∃ t, exec .wfi s = .next t ∧ ComputesOnly 4 0 0 { s with sleeping := true } t
    ∧ coreWfiMode t = true ∧ coreSleepValue t = s.csr.sleepvalue

/-- 60 R404, R402: in User Mode an instruction keeps the privilege and changes no CSR field, neither mcycle nor the
output tx_evt, unless it takes an exception. -/
def Obligations.UserModeIsolation : Prop :=
  ∀ (i : Instr) (s t : State), s.priv = .user → exec i s = .next t →
    (t.priv = .user ∧ t.csr = s.csr ∧ t.mcycle = s.mcycle ∧ t.txPulses = s.txPulses)
      ∨ ∃ (code : BitVec 12) (tval : Word), t = takeException s.pc code tval s

/-- 60 R404: no instruction but mret takes the hart from Machine Mode to User Mode. -/
def Obligations.OnlyMretLowersPrivilege : Prop :=
  ∀ (i : Instr) (s t : State), s.priv = .machine → exec i s = .next t → t.priv = .user → i = .mret

/-- What stops an instruction, and nothing else does: the four reasons the spec gives (61 R461, 45 R339, 43 R304, 11_csr.md
R59 and R60 with 93 U8), each exactly under its own condition. No instruction faults. -/
def Obligations.InstructionsStopOnlyByName : Prop :=
  ∀ (i : Instr) (s : State),
    (∀ f : Fault, exec i s ≠ .fault f) ∧
    (∀ r : Refusal, exec i s = .refused r ↔
      (r = .timerAccessSize ∧ NarrowTimerAccess i s) ∨ (r = .atomicOnDevice ∧ AtomicOnDevice i s)
        ∨ (r = .undocumentedCsrForm ∧ UndocumentedForm i s) ∨ (r = .mieMipOutsideEclicMode ∧ MieMipAccess i s))

/-! ## CSR instructions -/

/-- 43 R279 to R286: the six instructions on an ordinary register that the access check allows. That a write of
mcountinhibit is counted by the IR bit before it is the model's reading (log 30); whether a write of minstret or minstreth
is counted itself is open (log 15). -/
def Obligations.CsrInstructions : Prop :=
  ∀ (s : State) (rd r : BitVec 5) (csr : CsrAddr) (c : Csr), csrRefusal s c = none →
    (csrAccess s csr true = some c →
      (∃ t, exec (.csrrw rd r csr) s = .next t ∧ AccessesCsr rd c true (getReg s r) s t) ∧
      (∃ t, exec (.csrrwi rd r csr) s = .next t ∧ AccessesCsr rd c true (r.setWidth 32) s t)) ∧
    (csrAccess s csr (r != 0#5) = some c →
      (∃ t, exec (.csrrs rd r csr) s = .next t
        ∧ AccessesCsr rd c (r != 0#5) (csrRead s c ||| getReg s r) s t) ∧
      (∃ t, exec (.csrrc rd r csr) s = .next t
        ∧ AccessesCsr rd c (r != 0#5) (csrRead s c &&& ~~~(getReg s r)) s t) ∧
      (∃ t, exec (.csrrsi rd r csr) s = .next t
        ∧ AccessesCsr rd c (r != 0#5) (csrRead s c ||| r.setWidth 32) s t) ∧
      (∃ t, exec (.csrrci rd r csr) s = .next t
        ∧ AccessesCsr rd c (r != 0#5) (csrRead s c &&& ~~~(r.setWidth 32)) s t))

/-- 10_state.md R41, R42, 43 R288: the registers at their addresses with their classes, and no others; each condition of
the access check makes each of the six instructions illegal, and with no condition met the access is allowed. -/
def Obligations.CsrAccessCheck : Prop :=
  (∀ p ∈ csrTable, csrAt p.1 = some p.2.1 ∧ csrClass p.2.1 = p.2.2) ∧
  (∀ a : CsrAddr, (∀ p ∈ csrTable, p.1 ≠ a) → csrAt a = none) ∧
  (∀ (s : State) (rd r : BitVec 5) (csr : CsrAddr), ∀ p ∈ csrForms rd r csr,
    (csrAt csr = none
        ∨ (csr = 0x306#12 ∧ s.cfg.hasUmode = false)
        ∨ (p.2 = true ∧ ∃ c, csrAt csr = some c ∧ (csrClass c = .mro ∨ csrClass c = .uro))
        ∨ (s.priv = .user ∧ ∃ c, csrAt csr = some c ∧ (csrClass c = .mrw ∨ csrClass c = .mro))
        ∨ (s.priv = .user ∧ (csr = 0xC00#12 ∨ csr = 0xC80#12) ∧ s.csr.counterenCy = false)
        ∨ (s.priv = .user ∧ (csr = 0xC01#12 ∨ csr = 0xC81#12) ∧ s.csr.counterenTm = false)
        ∨ (s.priv = .user ∧ (csr = 0xC02#12 ∨ csr = 0xC82#12) ∧ s.csr.counterenIr = false)) →
      exec p.1 s = .next (takeException s.pc 2#12 (encodedWord p.1) s)) ∧
  ∀ (s : State) (csr : CsrAddr) (c : Csr) (wr : Bool), csrAt csr = some c →
    ¬ (csr = 0x306#12 ∧ s.cfg.hasUmode = false) → ¬ (wr = true ∧ csrClass c ≠ .mrw) →
    (s.priv = .user → csrClass c = .uro
      ∧ ((csr = 0xC00#12 ∨ csr = 0xC80#12) → s.csr.counterenCy = true)
      ∧ ((csr = 0xC01#12 ∨ csr = 0xC81#12) → s.csr.counterenTm = true)
      ∧ ((csr = 0xC02#12 ∨ csr = 0xC82#12) → s.csr.counterenIr = true)) →
    csrAccess s csr wr = some c

/-- 11_csr.md R50 to R95: what each read-only register reads, what each writable register reads after `v` is written to
it, that every register which does not mirror it reads as before, and that a 1 in bit 0 of txevt and nothing else emits one
tx_evt pulse (R94). Of mie and mip this is stated in ECLIC mode only, of every other register in every mode. The mirrors of
mcause are stated for the codes of MPP that are modes of the core. That FS reads 0 (log 17), that bit 0 of msaveepc1/2 and
the reserved bits of msavecause1/2 read 0 (log 33), and that bit 20 of misa follows User Mode (log 25), are the model's
readings. -/
def Obligations.CsrReadsBack : Prop :=
  (∀ s : State, ∀ p ∈ [(Csr.mvendorid, s.cfg.mvendorid), (.marchid, s.cfg.marchid), (.mimpid, s.cfg.mimpid),
      (.mhartid, s.cfg.mhartid),
      (.misa, 0x40001105#32 ||| (if s.cfg.hasUmode then 0x00100000#32 else 0#32)
        ||| (if s.cfg.misaX then 0x00800000#32 else 0#32)),
      (.mintstatus, s.csr.mil ++ 0#16 ++ s.csr.uil),
      (.mnvec, if s.csr.nmiCauseFff then s.csr.mtvec else s.cfg.resetVector),
      (.cycle, s.mcycle.extractLsb' 0 32), (.cycleh, s.mcycle.extractLsb' 32 32),
      (.time, s.timer.mtime.extractLsb' 0 32), (.timeh, s.timer.mtime.extractLsb' 32 32),
      (.instret, s.minstret.extractLsb' 0 32), (.instreth, s.minstret.extractLsb' 32 32)],
    csrRead s p.1 = p.2) ∧
  ∀ (s : State) (v : Word),
    (∀ p ∈ [(Csr.mtvec, 0xFFFFFFFF#32), (.mscratch, 0xFFFFFFFF#32), (.mtval, 0xFFFFFFFF#32), (.mepc, 0xFFFFFFFE#32),
        (.msaveepc1, 0xFFFFFFFE#32), (.msaveepc2, 0xFFFFFFFE#32), (.msavecause1, 0xF8FF0FFF#32),
        (.msavecause2, 0xF8FF0FFF#32), (.msubm, 0x3C0#32), (.mmiscCtl, 0x200#32), (.msavestatus, 0xC7C7#32),
        (.mcounteren, 7#32), (.mcountinhibit, 5#32), (.mtvt2, 0xFFFFFFFD#32), (.wfe, 1#32), (.sleepvalue, 1#32),
        (.txevt, 0#32), (.mcycle, 0xFFFFFFFF#32), (.mcycleh, 0xFFFFFFFF#32),
        (.minstret, 0xFFFFFFFF#32), (.minstreth, 0xFFFFFFFF#32)],
      csrRead (csrWrite s p.1 v) p.1 = v &&& p.2) ∧
    (∀ p ∈ [(0, 16, 6), (17, 32, 7), (33, 64, 8), (65, 128, 9), (129, 256, 10), (257, 512, 11), (513, 1024, 12),
        (1025, 2048, 13), (2049, 4096, 14)],
      p.1 ≤ s.cfg.numInterrupt → s.cfg.numInterrupt ≤ p.2.1 →
        csrRead (csrWrite s .mtvt v) .mtvt = v &&& (0xFFFFFFFF#32 <<< p.2.2)) ∧
    (s.csr.mtvec.extractLsb' 0 6 = 3#6 →
      csrRead (csrWrite s .mie v) .mie = 0#32 ∧ csrRead (csrWrite s .mip v) .mip = 0#32) ∧
    (v.extractLsb' 11 2 = 3#2 ∨ (v.extractLsb' 11 2 = 0#2 ∧ s.cfg.hasUmode = true) →
      csrRead (csrWrite s .mstatus v) .mstatus &&& 0xFFFDFFFF#32
        = (v &&& 0x00019888#32) ||| (if v.extractLsb' 15 2 = 3#2 then 0x80000000#32 else 0#32)) ∧
    (v.extractLsb' 28 2 = 3#2 ∨ (v.extractLsb' 28 2 = 0#2 ∧ s.cfg.hasUmode = true) →
      csrRead (csrWrite s .mcause v) .mcause = v &&& 0xF8FF0FFF#32
        ∧ (csrWrite s .mcause v).csr.mpp = v.extractLsb' 28 2 ∧ (csrWrite s .mcause v).csr.mpie = v.getLsbD 27) ∧
    (∀ c c' : Csr, c' ∉ seenIn c → csrRead (csrWrite s c v) c' = csrRead s c') ∧
    ∀ c : Csr, (csrWrite s c v).txPulses = s.txPulses + (if c = .txevt ∧ v.getLsbD 0 = true then 1 else 0)

/-- 43 R295 to R297: csrrsi and csrrci on mnxti in Machine Mode, with nothing to serve, and with an interrupt to serve
whose table entry is memory of the platform. That this holds whatever mtvec.MODE (log 40)
and of a reserved source too (log 41) is the model's choice. -/
def Obligations.MnxtiResults : Prop :=
  ∀ (s : State) (rd : Reg) (u : BitVec 5) (set : Bool) (i : Instr), s.priv = .machine →
    i = (if set then .csrrsi rd u 0x345#12 else .csrrci rd u 0x345#12) →
    ((eclicRequest s.eclic = none
        ∨ ∃ w, eclicRequest s.eclic = some w ∧ (w.level.toNat ≤ s.csr.causeMpil.toNat ∨ w.shv = true)) →
      ∃ t, exec i s = .next t
        ∧ ComputesOnly 4 rd 0#32
            { s with csr := { s.csr with mie := if u.getLsbD 3 then set else s.csr.mie } } t) ∧
    (∀ (w : Candidate) (a : Word), eclicRequest s.eclic = some w → s.csr.causeMpil.toNat < w.level.toNat →
      w.shv = false → a = s.csr.mtvt + BitVec.ofNat 32 (4 * w.id) → AllMapped s.cfg a 4 →
      ∃ t, exec i s = .next t
        ∧ Wrote rd (match s.cfg.mnxtiReading with | .entryContent => wordAt s a | .entryAddress => a) t
        ∧ SameRegsBut rd s t ∧ SameMemory s t ∧ t.pc = s.pc + 4 ∧ t.minstret = countRetired s
        ∧ SameOutside s t ∧ t.priv = s.priv ∧ t.reservation = s.reservation ∧ t.timer = s.timer
        ∧ t.errorReports = s.errorReports ∧ t.storeLog = s.storeLog
        ∧ (u = 0#5 → t.csr = s.csr ∧ t.eclic = s.eclic)
        ∧ (u ≠ 0#5 → t.eclic = claim s.eclic w.id ∧ t.csr = { s.csr with
            mie := if u.getLsbD 3 then set else s.csr.mie
            causeExccode := BitVec.ofNat 12 w.id, mil := w.level }))

/-- 43 R298, 61 R481: csrrw on jalmnxti in Machine Mode: a no-op, or the jump to the interrupt's routine with the link at
the instruction itself; the claim clears the pending bit exactly if the source is edge-triggered. That this
holds whatever mtvec.MODE (log 40) and of a reserved source too (log 41) is the model's choice. -/
def Obligations.JalmnxtiResults : Prop :=
  ∀ (s : State) (rd rs1 : Reg), s.priv = .machine →
    ((eclicRequest s.eclic = none
        ∨ ∃ w, eclicRequest s.eclic = some w ∧ (w.level.toNat ≤ s.csr.causeMpil.toNat ∨ w.shv = true)) →
      ∃ t, exec (.csrrw rd rs1 0x7ED#12) s = .next t ∧ ComputesOnly 4 0 0 s t) ∧
    (∀ (w : Candidate) (a : Word), eclicRequest s.eclic = some w → s.csr.causeMpil.toNat < w.level.toNat →
      w.shv = false → a = s.csr.mtvt + BitVec.ofNat 32 (4 * w.id) → AllMapped s.cfg a 4 →
      ∃ t, exec (.csrrw rd rs1 0x7ED#12) s = .next t ∧ Wrote rd s.pc t ∧ SameRegsBut rd s t
        ∧ t.pc = wordAt s a &&& 0xFFFFFFFE#32 ∧ t.minstret = countRetired s
        ∧ t.csr = { s.csr with mie := true, causeExccode := BitVec.ofNat 12 w.id, mil := w.level }
        ∧ (∀ i : Nat, i ≠ w.id → t.eclic.sources[i]? = s.eclic.sources[i]?)
        ∧ (∀ src, s.eclic.sources[w.id]? = some src →
            t.eclic.sources[w.id]? = some (if src.edge then { src with ip := false } else src))
        ∧ t.eclic.nlbits = s.eclic.nlbits ∧ t.eclic.mth = s.eclic.mth
        ∧ SameMemory s t ∧ SameOutside s t ∧ t.priv = s.priv ∧ t.reservation = s.reservation ∧ t.timer = s.timer
        ∧ t.errorReports = s.errorReports ∧ t.storeLog = s.storeLog)

/-- 43 R300: the push registers store msubm, mcause or mepc at x2 + 4 * uimm; x2 stays. -/
def Obligations.PushResults : Prop :=
  ∀ (s : State) (u : BitVec 5) (a : Word), s.mem.wf = true → s.priv = .machine →
    a = getReg s 2 + 4 * u.setWidth 32 →
    a.toNat % 4 = 0 → AllRam s.cfg a 4 →
    (∃ t, exec (.csrrwi 0 u 0x7EB#12) s = .next t ∧ StoresOnly 4 a 4 (csrRead s .msubm) s t) ∧
    (∃ t, exec (.csrrwi 0 u 0x7EE#12) s = .next t ∧ StoresOnly 4 a 4 (csrRead s .mcause) s t) ∧
    (∃ t, exec (.csrrwi 0 u 0x7EF#12) s = .next t ∧ StoresOnly 4 a 4 (csrRead s .mepc) s t)

/-- 43 R302, R303: the exchange with mscratch, by MPP and by the levels. -/
def Obligations.ScratchSwapResults : Prop :=
  ∀ (s : State) (rd rs1 : Reg), s.priv = .machine →
    ∀ p ∈ [((0x348#12 : CsrAddr), s.csr.mpp ≠ 3#2), (0x349#12, ¬ (s.csr.causeMpil = 0#8 ↔ s.csr.mil = 0#8))],
      (p.2 → ∃ t, exec (.csrrw rd rs1 p.1) s = .next t
        ∧ ComputesOnly 4 rd s.csr.mscratch { s with csr := { s.csr with mscratch := getReg s rs1 } } t) ∧
      (¬ p.2 → ∃ t, exec (.csrrw rd rs1 p.1) s = .next t ∧ ComputesOnly 4 rd (getReg s rs1) s t)

/-- 43 R304, decision D25: the forms that no source describes stop by name, in Machine Mode. -/
def Obligations.UndocumentedForms : Prop :=
  ∀ (s : State) (rd r : BitVec 5), s.priv = .machine →
    (∀ i ∈ [Instr.csrrw rd r 0x345, .csrrs rd r 0x345, .csrrc rd r 0x345, .csrrwi rd r 0x345,
        .csrrs rd r 0x7ED, .csrrc rd r 0x7ED, .csrrwi rd r 0x7ED, .csrrsi rd r 0x7ED, .csrrci rd r 0x7ED,
        .csrrs rd r 0x348, .csrrc rd r 0x348, .csrrwi rd r 0x348, .csrrsi rd r 0x348, .csrrci rd r 0x348,
        .csrrs rd r 0x349, .csrrc rd r 0x349, .csrrwi rd r 0x349, .csrrsi rd r 0x349, .csrrci rd r 0x349],
      exec i s = .refused .undocumentedCsrForm) ∧
    (∀ csr ∈ [0x7EB#12, 0x7EE#12, 0x7EF#12],
      (∀ i ∈ [Instr.csrrw rd r csr, .csrrs rd r csr, .csrrc rd r csr, .csrrsi rd r csr, .csrrci rd r csr],
        exec i s = .refused .undocumentedCsrForm) ∧
      (rd ≠ 0#5 → exec (.csrrwi rd r csr) s = .refused .undocumentedCsrForm))
end

