-- ==== Sys2Proof/Laws/Csr.lean ====
section
/-! SUPPORT. The CSR layouts: masks as slices, and the fields of mcause read back from its word. -/

namespace Sys2Proof.Machine

/-! ## Masks -/

theorem clearLow2_eq (v : Word) : clearLow2 v = v.extractLsb' 2 30 ++ 0#2 := by
  unfold clearLow2
  refine BitVec.eq_of_getLsbD_eq fun i hi => ?_
  rw [BitVec.getLsbD_and, BitVec.getLsbD_append, BitVec.getLsbD_extractLsb']
  interval_cases i <;> simp

theorem clearBit0_eq (v : Word) : clearBit0 v = v.extractLsb' 1 31 ++ 0#1 := by
  unfold clearBit0
  refine BitVec.eq_of_getLsbD_eq fun i hi => ?_
  rw [BitVec.getLsbD_and, BitVec.getLsbD_append, BitVec.getLsbD_extractLsb']
  interval_cases i <;> simp

@[simp] theorem even_clearBit0 (v : Word) : even (clearBit0 v) = true := by simp [even, clearBit0]

@[simp] theorem even_clearLow2 (v : Word) : even (clearLow2 v) = true := by simp [even, clearLow2]

/-- An even address plus an even offset is even. -/
theorem even_add (a b : Word) (ha : even a = true) (hb : even b = true) : even (a + b) = true := by
  simp only [even, beq_iff_eq, BitVec.getLsbD, Nat.testBit_zero, decide_eq_false_iff_not, BitVec.toNat_add] at ha hb ⊢
  omega

/-! ## mcause -/

theorem mcauseWord_fields (r : CsrFile) :
    (mcauseWord r).getLsbD 31 = r.causeInterrupt ∧ (mcauseWord r).getLsbD 30 = r.causeMinhv
      ∧ (mcauseWord r).extractLsb' 16 8 = r.causeMpil ∧ (mcauseWord r).extractLsb' 0 12 = r.causeExccode := by
  unfold mcauseWord
  refine ⟨?_, ?_, BitVec.eq_of_getLsbD_eq fun i hi => ?_, BitVec.eq_of_getLsbD_eq fun i hi => ?_⟩
  · simp only [BitVec.getLsbD_append]; simp
  · simp only [BitVec.getLsbD_append]; simp
  · interval_cases i <;> simp only [BitVec.getLsbD_extractLsb', BitVec.getLsbD_append] <;> rfl
  · interval_cases i <;> simp only [BitVec.getLsbD_extractLsb', BitVec.getLsbD_append] <;> rfl

/-- Loading mcause from its own word changes nothing. -/
theorem loadCause_mcauseWord (r r' : CsrFile) :
    loadCause r' (mcauseWord r) = { r' with
      causeInterrupt := r.causeInterrupt, causeMinhv := r.causeMinhv
      causeMpil := r.causeMpil, causeExccode := r.causeExccode } := by
  obtain ⟨h1, h2, h3, h4⟩ := mcauseWord_fields r
  simp only [loadCause, h1, h2, h3, h4]

/-- The word of mcause keeps the reserved bits of its layout 0. -/
theorem causeLayout_mcauseWord (r : CsrFile) : causeLayout (mcauseWord r) = mcauseWord r := by
  unfold causeLayout mcauseWord
  refine BitVec.eq_of_getLsbD_eq fun i hi => ?_
  rw [BitVec.getLsbD_and]
  interval_cases i <;> simp only [BitVec.getLsbD_append] <;> simp

/-! ## MPP -/

theorem legalMpp_legal (c : Config) (m : Bool) (v : BitVec 2) : mppLegal (legalMpp c m v) = true := by
  unfold legalMpp mppLegal
  repeat (first | rfl | split)

/-- A code of a mode of the core is kept. -/
theorem legalMpp_of_mode (c : Config) (m : Bool) (v : BitVec 2)
    (h : v = 3#2 ∨ (v = 0#2 ∧ c.hasUmode = true)) : legalMpp c m v = v := by
  rcases h with rfl | ⟨rfl, hu⟩ <;> simp [legalMpp, *]

@[simp] theorem mppLegal_privCode (p : Priv) : mppLegal (privCode p) = true := by cases p <;> rfl

@[simp] theorem subModeOf_code (m : SubMode) : subModeOf (subModeCode m) = m := by cases m <;> rfl

theorem subModeCode_of (v : BitVec 2) : subModeCode (subModeOf v) = v := by
  revert v; decide

end Sys2Proof.Machine
end

