-- ==== Sys2Proof/Laws/Decode.lean ====
section
/-! SUPPORT. What the decoder's field functions read from the encoder's formats: one lemma for each format. -/

namespace Sys2Proof

/-- A multiple of `2 ^ k` has its `k` low bits 0. -/
theorem multipleOf_low_zero {n : Nat} (k : Nat) (v : BitVec n) (h : multipleOf (2 ^ k) v = true) (j : Nat)
    (hj : j < k) : v.getLsbD j = false := by
  simp only [multipleOf, beq_iff_eq] at h
  obtain ⟨q, hq⟩ := Nat.dvd_of_mod_eq_zero h
  rw [BitVec.getLsbD, hq, Nat.testBit_two_pow_mul]
  simp [hj]

theorem multipleOf_two {n : Nat} (v : BitVec n) (h : multipleOf 2 v = true) : v.getLsbD 0 = false :=
  multipleOf_low_zero 1 v h 0 (by decide)

/-! ## The 32-bit formats -/

theorem encR_fields (f7 : BitVec 7) (rs2 rs1 : Reg) (f3 : BitVec 3) (rd : Reg) (op : BitVec 7) :
    fieldOpcode (encR f7 rs2 rs1 f3 rd op) = op ∧ fieldRd (encR f7 rs2 rs1 f3 rd op) = rd
      ∧ fieldFunct3 (encR f7 rs2 rs1 f3 rd op) = f3 ∧ fieldRs1 (encR f7 rs2 rs1 f3 rd op) = rs1
      ∧ fieldRs2 (encR f7 rs2 rs1 f3 rd op) = rs2 ∧ fieldFunct7 (encR f7 rs2 rs1 f3 rd op) = f7
      ∧ (encR f7 rs2 rs1 f3 rd op).extractLsb' 2 3 = op.extractLsb' 2 3 := by
  refine ⟨?_, ?_, ?_, ?_, ?_, ?_, ?_⟩ <;> refine BitVec.eq_of_getLsbD_eq fun i hi => ?_ <;> interval_cases i <;>
    simp only [fieldOpcode, fieldRd, fieldFunct3, fieldRs1, fieldRs2, fieldFunct7, encR, BitVec.getLsbD_extractLsb',
      BitVec.getLsbD_append] <;> rfl

theorem encI_fields (imm : BitVec 12) (rs1 : Reg) (f3 : BitVec 3) (rd : Reg) (op : BitVec 7) :
    fieldOpcode (encI imm rs1 f3 rd op) = op ∧ fieldRd (encI imm rs1 f3 rd op) = rd
      ∧ fieldFunct3 (encI imm rs1 f3 rd op) = f3 ∧ fieldRs1 (encI imm rs1 f3 rd op) = rs1
      ∧ immI (encI imm rs1 f3 rd op) = imm ∧ (encI imm rs1 f3 rd op).extractLsb' 2 3 = op.extractLsb' 2 3 := by
  refine ⟨?_, ?_, ?_, ?_, ?_, ?_⟩ <;> refine BitVec.eq_of_getLsbD_eq fun i hi => ?_ <;> interval_cases i <;>
    simp only [fieldOpcode, fieldRd, fieldFunct3, fieldRs1, immI, encI, BitVec.getLsbD_extractLsb',
      BitVec.getLsbD_append] <;> rfl

theorem encI_fence_fields (fm pred succ : BitVec 4) (rs1 : Reg) (f3 : BitVec 3) (rd : Reg) (op : BitVec 7) :
    (encI (fm ++ pred ++ succ) rs1 f3 rd op).extractLsb' 28 4 = fm
      ∧ (encI (fm ++ pred ++ succ) rs1 f3 rd op).extractLsb' 24 4 = pred
      ∧ (encI (fm ++ pred ++ succ) rs1 f3 rd op).extractLsb' 20 4 = succ := by
  refine ⟨?_, ?_, ?_⟩ <;> refine BitVec.eq_of_getLsbD_eq fun i hi => ?_ <;> interval_cases i <;>
    simp only [encI, BitVec.getLsbD_extractLsb', BitVec.getLsbD_append] <;> rfl

theorem encS_fields (imm : BitVec 12) (rs2 rs1 : Reg) (f3 : BitVec 3) :
    fieldOpcode (encS imm rs2 rs1 f3) = 0b0100011#7 ∧ fieldFunct3 (encS imm rs2 rs1 f3) = f3
      ∧ fieldRs1 (encS imm rs2 rs1 f3) = rs1 ∧ fieldRs2 (encS imm rs2 rs1 f3) = rs2
      ∧ immS (encS imm rs2 rs1 f3) = imm ∧ (encS imm rs2 rs1 f3).extractLsb' 2 3 = 0b000#3 := by
  refine ⟨?_, ?_, ?_, ?_, ?_, ?_⟩ <;> refine BitVec.eq_of_getLsbD_eq fun i hi => ?_ <;> interval_cases i <;>
    simp only [fieldOpcode, fieldFunct3, fieldRs1, fieldRs2, immS, encS, BitVec.getLsbD_extractLsb',
      BitVec.getLsbD_append] <;> rfl

theorem encB_fields (imm : BitVec 13) (rs2 rs1 : Reg) (f3 : BitVec 3) :
    fieldOpcode (encB imm rs2 rs1 f3) = 0b1100011#7 ∧ fieldFunct3 (encB imm rs2 rs1 f3) = f3
      ∧ fieldRs1 (encB imm rs2 rs1 f3) = rs1 ∧ fieldRs2 (encB imm rs2 rs1 f3) = rs2
      ∧ (encB imm rs2 rs1 f3).extractLsb' 2 3 = 0b000#3 := by
  refine ⟨?_, ?_, ?_, ?_, ?_⟩ <;> refine BitVec.eq_of_getLsbD_eq fun i hi => ?_ <;> interval_cases i <;>
    simp only [fieldOpcode, fieldFunct3, fieldRs1, fieldRs2, encB, BitVec.getLsbD_extractLsb',
      BitVec.getLsbD_append] <;> rfl

theorem immB_encB (imm : BitVec 13) (rs2 rs1 : Reg) (f3 : BitVec 3) (h : multipleOf 2 imm = true) :
    immB (encB imm rs2 rs1 f3) = imm := by
  refine BitVec.eq_of_getLsbD_eq fun i hi => ?_
  interval_cases i <;> simp only [immB, encB, BitVec.getLsbD_extractLsb', BitVec.getLsbD_append] <;>
    first | exact (multipleOf_two _ h).symm | rfl

theorem encU_fields (imm : BitVec 20) (rd : Reg) (op : BitVec 7) :
    fieldOpcode (encU imm rd op) = op ∧ fieldRd (encU imm rd op) = rd ∧ immU (encU imm rd op) = imm
      ∧ (encU imm rd op).extractLsb' 2 3 = op.extractLsb' 2 3 := by
  refine ⟨?_, ?_, ?_, ?_⟩ <;> refine BitVec.eq_of_getLsbD_eq fun i hi => ?_ <;> interval_cases i <;>
    simp only [fieldOpcode, fieldRd, immU, encU, BitVec.getLsbD_extractLsb', BitVec.getLsbD_append] <;> rfl

theorem encJ_fields (imm : BitVec 21) (rd : Reg) :
    fieldOpcode (encJ imm rd) = 0b1101111#7 ∧ fieldRd (encJ imm rd) = rd
      ∧ (encJ imm rd).extractLsb' 2 3 = 0b011#3 := by
  refine ⟨?_, ?_, ?_⟩ <;> refine BitVec.eq_of_getLsbD_eq fun i hi => ?_ <;> interval_cases i <;>
    simp only [fieldOpcode, fieldRd, encJ, BitVec.getLsbD_extractLsb', BitVec.getLsbD_append] <;> rfl

theorem immJ_encJ (imm : BitVec 21) (rd : Reg) (h : multipleOf 2 imm = true) : immJ (encJ imm rd) = imm := by
  refine BitVec.eq_of_getLsbD_eq fun i hi => ?_
  interval_cases i <;> simp only [immJ, encJ, BitVec.getLsbD_extractLsb', BitVec.getLsbD_append] <;>
    first | exact (multipleOf_two _ h).symm | rfl

theorem encA_fields (f5 : BitVec 5) (aq rl : BitVec 1) (rs2 rs1 rd : Reg) :
    fieldOpcode (encA f5 aq rl rs2 rs1 rd) = 0b0101111#7 ∧ fieldRd (encA f5 aq rl rs2 rs1 rd) = rd
      ∧ fieldFunct3 (encA f5 aq rl rs2 rs1 rd) = 0b010#3 ∧ fieldRs1 (encA f5 aq rl rs2 rs1 rd) = rs1
      ∧ fieldRs2 (encA f5 aq rl rs2 rs1 rd) = rs2 ∧ (encA f5 aq rl rs2 rs1 rd).extractLsb' 27 5 = f5
      ∧ (encA f5 aq rl rs2 rs1 rd).extractLsb' 26 1 = aq ∧ (encA f5 aq rl rs2 rs1 rd).extractLsb' 25 1 = rl
      ∧ (encA f5 aq rl rs2 rs1 rd).extractLsb' 2 3 = 0b011#3 := by
  refine ⟨?_, ?_, ?_, ?_, ?_, ?_, ?_, ?_, ?_⟩ <;> refine BitVec.eq_of_getLsbD_eq fun i hi => ?_ <;>
    interval_cases i <;>
    simp only [fieldOpcode, fieldRd, fieldFunct3, fieldRs1, fieldRs2, encA, BitVec.getLsbD_extractLsb',
      BitVec.getLsbD_append] <;> rfl

end Sys2Proof
end

