-- ==== Sys2Proof/Laws/DecodeHalf.lean ====
section
/-! SUPPORT. What the decoder's field functions read from the encoder's 16-bit formats: one lemma for each format. -/

namespace Sys2Proof

theorem encCi_fields (f3 : BitVec 3) (imm : BitVec 6) (rd : Reg) (q : BitVec 2) :
    (encCi f3 imm rd q).extractLsb' 0 2 = q
      ∧ cFunct3 (encCi f3 imm rd q) = f3
      ∧ cRd (encCi f3 imm rd q) = rd
      ∧ immCi (encCi f3 imm rd q) = imm := by
  refine ⟨?_, ?_, ?_, ?_⟩ <;> refine BitVec.eq_of_getLsbD_eq fun i hi => ?_ <;> interval_cases i <;>
    simp only [cFunct3, cRd, immCi, encCi, BitVec.getLsbD_extractLsb', BitVec.getLsbD_append] <;> rfl

theorem encCj_fields (f3 : BitVec 3) (o : BitVec 12) :
    (encCj f3 o).extractLsb' 0 2 = 0b01#2
      ∧ cFunct3 (encCj f3 o) = f3 := by
  refine ⟨?_, ?_⟩ <;> refine BitVec.eq_of_getLsbD_eq fun i hi => ?_ <;> interval_cases i <;>
    simp only [cFunct3, encCj, BitVec.getLsbD_extractLsb', BitVec.getLsbD_append] <;> rfl

theorem immCj_encCj (f3 : BitVec 3) (o : BitVec 12)
    (h : multipleOf 2 o = true) : immCj (encCj f3 o) = o := by
  refine BitVec.eq_of_getLsbD_eq fun i hi => ?_
  rcases Nat.lt_or_ge i 1 with hk | hk
  · rw [multipleOf_low_zero 1 _ h i hk]
    interval_cases i; simp only [immCj, encCj, BitVec.getLsbD_extractLsb', BitVec.getLsbD_append]; rfl
  · interval_cases i <;> simp only [immCj, encCj, BitVec.getLsbD_extractLsb', BitVec.getLsbD_append] <;> rfl

theorem encCb_fields (f3 : BitVec 3) (rs1 : CReg) (o : BitVec 9) :
    (encCb f3 rs1 o).extractLsb' 0 2 = 0b01#2
      ∧ cFunct3 (encCb f3 rs1 o) = f3
      ∧ cHi (encCb f3 rs1 o) = rs1 := by
  refine ⟨?_, ?_, ?_⟩ <;> refine BitVec.eq_of_getLsbD_eq fun i hi => ?_ <;> interval_cases i <;>
    simp only [cFunct3, cHi, encCb, BitVec.getLsbD_extractLsb', BitVec.getLsbD_append] <;> rfl

theorem immCb_encCb (f3 : BitVec 3) (rs1 : CReg) (o : BitVec 9)
    (h : multipleOf 2 o = true) : immCb (encCb f3 rs1 o) = o := by
  refine BitVec.eq_of_getLsbD_eq fun i hi => ?_
  rcases Nat.lt_or_ge i 1 with hk | hk
  · rw [multipleOf_low_zero 1 _ h i hk]
    interval_cases i; simp only [immCb, encCb, BitVec.getLsbD_extractLsb', BitVec.getLsbD_append]; rfl
  · interval_cases i <;> simp only [immCb, encCb, BitVec.getLsbD_extractLsb', BitVec.getLsbD_append] <;> rfl

theorem encCls_fields (f3 : BitVec 3) (rs1 r : CReg) (u : BitVec 7) :
    (encCls f3 rs1 r u).extractLsb' 0 2 = 0b00#2
      ∧ cFunct3 (encCls f3 rs1 r u) = f3
      ∧ cHi (encCls f3 rs1 r u) = rs1
      ∧ cLo (encCls f3 rs1 r u) = r := by
  refine ⟨?_, ?_, ?_, ?_⟩ <;> refine BitVec.eq_of_getLsbD_eq fun i hi => ?_ <;> interval_cases i <;>
    simp only [cFunct3, cHi, cLo, encCls, BitVec.getLsbD_extractLsb', BitVec.getLsbD_append] <;> rfl

theorem immCl_encCls (f3 : BitVec 3) (rs1 r : CReg) (u : BitVec 7)
    (h : multipleOf 4 u = true) : immCl (encCls f3 rs1 r u) = u := by
  refine BitVec.eq_of_getLsbD_eq fun i hi => ?_
  rcases Nat.lt_or_ge i 2 with hk | hk
  · rw [multipleOf_low_zero 2 _ h i hk]
    interval_cases i <;> simp only [immCl, encCls, BitVec.getLsbD_extractLsb', BitVec.getLsbD_append] <;> rfl
  · interval_cases i <;> simp only [immCl, encCls, BitVec.getLsbD_extractLsb', BitVec.getLsbD_append] <;> rfl

theorem encCa_fields (f2 : BitVec 2) (rd rs2 : CReg) :
    (encCa f2 rd rs2).extractLsb' 0 2 = 0b01#2
      ∧ cFunct3 (encCa f2 rd rs2) = 0b100#3
      ∧ cHi (encCa f2 rd rs2) = rd
      ∧ cLo (encCa f2 rd rs2) = rs2
      ∧ cBit12 (encCa f2 rd rs2) = 0#1
      ∧ (encCa f2 rd rs2).extractLsb' 10 2 = 0b11#2
      ∧ (encCa f2 rd rs2).extractLsb' 5 2 = f2 := by
  refine ⟨?_, ?_, ?_, ?_, ?_, ?_, ?_⟩ <;> refine BitVec.eq_of_getLsbD_eq fun i hi => ?_ <;> interval_cases i <;>
    simp only [cFunct3, cHi, cLo, cBit12, encCa, BitVec.getLsbD_extractLsb', BitVec.getLsbD_append] <;> rfl

theorem encCshift_fields (f2 : BitVec 2) (rd : CReg) (shamt : BitVec 5) :
    (encCshift f2 rd shamt).extractLsb' 0 2 = 0b01#2
      ∧ cFunct3 (encCshift f2 rd shamt) = 0b100#3
      ∧ cHi (encCshift f2 rd shamt) = rd
      ∧ cRs2 (encCshift f2 rd shamt) = shamt
      ∧ cBit12 (encCshift f2 rd shamt) = 0#1
      ∧ (encCshift f2 rd shamt).extractLsb' 10 2 = f2 := by
  refine ⟨?_, ?_, ?_, ?_, ?_, ?_⟩ <;> refine BitVec.eq_of_getLsbD_eq fun i hi => ?_ <;> interval_cases i <;>
    simp only [cFunct3, cHi, cRs2, cBit12, encCshift, BitVec.getLsbD_extractLsb', BitVec.getLsbD_append] <;> rfl

theorem encCr_fields (f4 : BitVec 4) (rd rs2 : Reg) :
    (encCr f4 rd rs2).extractLsb' 0 2 = 0b10#2
      ∧ cFunct3 (encCr f4 rd rs2) = f4.extractLsb' 1 3
      ∧ cRd (encCr f4 rd rs2) = rd
      ∧ cRs2 (encCr f4 rd rs2) = rs2
      ∧ cBit12 (encCr f4 rd rs2) = f4.extractLsb' 0 1 := by
  refine ⟨?_, ?_, ?_, ?_, ?_⟩ <;> refine BitVec.eq_of_getLsbD_eq fun i hi => ?_ <;> interval_cases i <;>
    simp only [cFunct3, cRd, cRs2, cBit12, encCr, BitVec.getLsbD_extractLsb', BitVec.getLsbD_append] <;> rfl

theorem encCiw_fields (rd : CReg) (u : BitVec 10) :
    (encCiw rd u).extractLsb' 0 2 = 0b00#2
      ∧ cFunct3 (encCiw rd u) = 0b000#3
      ∧ cLo (encCiw rd u) = rd := by
  refine ⟨?_, ?_, ?_⟩ <;> refine BitVec.eq_of_getLsbD_eq fun i hi => ?_ <;> interval_cases i <;>
    simp only [cFunct3, cLo, encCiw, BitVec.getLsbD_extractLsb', BitVec.getLsbD_append] <;> rfl

theorem immCiw_encCiw (rd : CReg) (u : BitVec 10)
    (h : multipleOf 4 u = true) : immCiw (encCiw rd u) = u := by
  refine BitVec.eq_of_getLsbD_eq fun i hi => ?_
  rcases Nat.lt_or_ge i 2 with hk | hk
  · rw [multipleOf_low_zero 2 _ h i hk]
    interval_cases i <;> simp only [immCiw, encCiw, BitVec.getLsbD_extractLsb', BitVec.getLsbD_append] <;> rfl
  · interval_cases i <;> simp only [immCiw, encCiw, BitVec.getLsbD_extractLsb', BitVec.getLsbD_append] <;> rfl

theorem encC16sp_fields (n : BitVec 10) :
    (encC16sp n).extractLsb' 0 2 = 0b01#2
      ∧ cFunct3 (encC16sp n) = 0b011#3
      ∧ cRd (encC16sp n) = 2#5 := by
  refine ⟨?_, ?_, ?_⟩ <;> refine BitVec.eq_of_getLsbD_eq fun i hi => ?_ <;> interval_cases i <;>
    simp only [cFunct3, cRd, encC16sp, BitVec.getLsbD_extractLsb', BitVec.getLsbD_append] <;> rfl

theorem immC16sp_encC16sp (n : BitVec 10)
    (h : multipleOf 16 n = true) : immC16sp (encC16sp n) = n := by
  refine BitVec.eq_of_getLsbD_eq fun i hi => ?_
  rcases Nat.lt_or_ge i 4 with hk | hk
  · rw [multipleOf_low_zero 4 _ h i hk]
    interval_cases i <;> simp only [immC16sp, encC16sp, BitVec.getLsbD_extractLsb', BitVec.getLsbD_append] <;> rfl
  · interval_cases i <;> simp only [immC16sp, encC16sp, BitVec.getLsbD_extractLsb', BitVec.getLsbD_append] <;> rfl

theorem encCandi_fields (rd : CReg) (imm : BitVec 6) :
    (encCandi rd imm).extractLsb' 0 2 = 0b01#2
      ∧ cFunct3 (encCandi rd imm) = 0b100#3
      ∧ (encCandi rd imm).extractLsb' 10 2 = 0b10#2
      ∧ cHi (encCandi rd imm) = rd
      ∧ immCi (encCandi rd imm) = imm := by
  refine ⟨?_, ?_, ?_, ?_, ?_⟩ <;> refine BitVec.eq_of_getLsbD_eq fun i hi => ?_ <;> interval_cases i <;>
    simp only [cFunct3, cHi, immCi, encCandi, BitVec.getLsbD_extractLsb', BitVec.getLsbD_append] <;> rfl

theorem encCslli_fields (rd shamt : BitVec 5) :
    (encCslli rd shamt).extractLsb' 0 2 = 0b10#2
      ∧ cFunct3 (encCslli rd shamt) = 0b000#3
      ∧ cBit12 (encCslli rd shamt) = 0#1
      ∧ cRd (encCslli rd shamt) = rd
      ∧ cRs2 (encCslli rd shamt) = shamt := by
  refine ⟨?_, ?_, ?_, ?_, ?_⟩ <;> refine BitVec.eq_of_getLsbD_eq fun i hi => ?_ <;> interval_cases i <;>
    simp only [cFunct3, cRd, cRs2, cBit12, encCslli, BitVec.getLsbD_extractLsb', BitVec.getLsbD_append] <;> rfl

theorem encClwsp_fields (rd : Reg) (u : BitVec 8) :
    (encClwsp rd u).extractLsb' 0 2 = 0b10#2
      ∧ cFunct3 (encClwsp rd u) = 0b010#3
      ∧ cRd (encClwsp rd u) = rd := by
  refine ⟨?_, ?_, ?_⟩ <;> refine BitVec.eq_of_getLsbD_eq fun i hi => ?_ <;> interval_cases i <;>
    simp only [cFunct3, cRd, encClwsp, BitVec.getLsbD_extractLsb', BitVec.getLsbD_append] <;> rfl

theorem immClwsp_encClwsp (rd : Reg) (u : BitVec 8)
    (h : multipleOf 4 u = true) : immClwsp (encClwsp rd u) = u := by
  refine BitVec.eq_of_getLsbD_eq fun i hi => ?_
  rcases Nat.lt_or_ge i 2 with hk | hk
  · rw [multipleOf_low_zero 2 _ h i hk]
    interval_cases i <;> simp only [immClwsp, encClwsp, BitVec.getLsbD_extractLsb', BitVec.getLsbD_append] <;> rfl
  · interval_cases i <;> simp only [immClwsp, encClwsp, BitVec.getLsbD_extractLsb', BitVec.getLsbD_append] <;> rfl

theorem encCss_fields (rs2 : Reg) (u : BitVec 8) :
    (encCss rs2 u).extractLsb' 0 2 = 0b10#2
      ∧ cFunct3 (encCss rs2 u) = 0b110#3
      ∧ cRs2 (encCss rs2 u) = rs2 := by
  refine ⟨?_, ?_, ?_⟩ <;> refine BitVec.eq_of_getLsbD_eq fun i hi => ?_ <;> interval_cases i <;>
    simp only [cFunct3, cRs2, encCss, BitVec.getLsbD_extractLsb', BitVec.getLsbD_append] <;> rfl

theorem immCss_encCss (rs2 : Reg) (u : BitVec 8)
    (h : multipleOf 4 u = true) : immCss (encCss rs2 u) = u := by
  refine BitVec.eq_of_getLsbD_eq fun i hi => ?_
  rcases Nat.lt_or_ge i 2 with hk | hk
  · rw [multipleOf_low_zero 2 _ h i hk]
    interval_cases i <;> simp only [immCss, encCss, BitVec.getLsbD_extractLsb', BitVec.getLsbD_append] <;> rfl
  · interval_cases i <;> simp only [immCss, encCss, BitVec.getLsbD_extractLsb', BitVec.getLsbD_append] <;> rfl

end Sys2Proof
end

