-- ==== Sys2Proof/Laws/Memory.lean ====
section
/-! SUPPORT. The laws of memory: a read after a write, and the canonical form, which every memory operation keeps. -/

namespace Sys2Proof.Machine

/-! ## One byte -/

theorem Memory.wfFrom_mono {lo lo' : Nat} (m : Memory) (h : lo' ≤ lo) (hw : Memory.wfFrom lo m = true) :
    Memory.wfFrom lo' m = true := by
  cases m with
  | nil => rfl
  | cons c m =>
    simp only [Memory.wfFrom, Bool.and_eq_true, decide_eq_true_eq] at hw ⊢
    exact ⟨⟨⟨Nat.le_trans h hw.1.1.1, hw.1.1.2⟩, hw.1.2⟩, hw.2⟩

/-- Below the lowest listed address nothing is listed. -/
theorem Memory.read_below {lo : Nat} (m : Memory) (a : Nat) (hw : Memory.wfFrom lo m = true) (h : a < lo) :
    Memory.read m a = unlistedByte := by
  induction m generalizing lo with
  | nil => rfl
  | cons c m ih =>
    simp only [Memory.wfFrom, Bool.and_eq_true, decide_eq_true_eq] at hw
    have hne : c.1 ≠ a := by omega
    simp only [Memory.read, if_neg hne]
    exact ih hw.2 (by omega)

/-- A read at another address is not changed by a write. -/
theorem Memory.read_write_other (m : Memory) (a b : Nat) (v : Byte) (h : b ≠ a) :
    Memory.read (Memory.write m a v) b = Memory.read m b := by
  have h' : ¬a = b := fun e => h e.symm
  induction m with
  | nil => unfold Memory.write; split <;> simp [Memory.read, h']
  | cons c m ih =>
    obtain ⟨k, w⟩ := c
    unfold Memory.write
    split
    · split
      · rfl
      · simp [Memory.read, h']
    · split
      · next _ e => subst e; split <;> simp [Memory.read, h']
      · simp only [Memory.read, ih]

/-- In canonical form a read gives what was last written there. -/
theorem Memory.read_write_same {lo : Nat} (m : Memory) (a : Nat) (v : Byte) (hw : Memory.wfFrom lo m = true) :
    Memory.read (Memory.write m a v) a = v := by
  induction m generalizing lo with
  | nil => unfold Memory.write; split <;> simp_all [Memory.read]
  | cons c m ih =>
    obtain ⟨k, w⟩ := c
    simp only [Memory.wfFrom, Bool.and_eq_true, decide_eq_true_eq] at hw
    unfold Memory.write
    split
    · next hlt =>
      split
      · next hv =>
        have hne : ¬k = a := by omega
        simp only [Memory.read, if_neg hne, hv]
        exact Memory.read_below m a hw.2 (by omega)
      · simp [Memory.read]
    · split
      · next _ e =>
        subst e
        split
        · next hv => rw [hv]; exact Memory.read_below m a hw.2 (by omega)
        · simp [Memory.read]
      · next hnlt hne =>
        have hne' : ¬k = a := fun e => hne e.symm
        simp only [Memory.read, if_neg hne']
        exact ih hw.2

/-- A write to an address that the machine has keeps the canonical form. -/
theorem Memory.write_wfFrom {lo : Nat} (m : Memory) (a : Nat) (v : Byte) (hw : Memory.wfFrom lo m = true)
    (hlo : lo ≤ a) (ha : a < 2 ^ 32) : Memory.wfFrom lo (Memory.write m a v) = true := by
  induction m generalizing lo with
  | nil => unfold Memory.write; split <;> simp_all [Memory.wfFrom]
  | cons c m ih =>
    obtain ⟨k, w⟩ := c
    have hw' := hw
    simp only [Memory.wfFrom, Bool.and_eq_true, decide_eq_true_eq] at hw'
    unfold Memory.write
    split
    · next hlt =>
      split
      · exact hw
      · next hv =>
        simp only [Memory.wfFrom, Bool.and_eq_true, decide_eq_true_eq, bne_iff_ne, ne_eq] at hw' ⊢
        exact ⟨⟨⟨hlo, ha⟩, hv⟩, ⟨⟨hlt, hw'.1.1.2⟩, hw'.1.2⟩, hw'.2⟩
    · split
      · next _ e =>
        subst e
        split
        · exact Memory.wfFrom_mono m (by omega) hw'.2
        · next hv =>
          simp only [Memory.wfFrom, Bool.and_eq_true, decide_eq_true_eq, bne_iff_ne, ne_eq]
          exact ⟨⟨⟨hlo, ha⟩, hv⟩, hw'.2⟩
      · next hnlt hne =>
        simp only [Memory.wfFrom, Bool.and_eq_true, decide_eq_true_eq]
        exact ⟨hw'.1, ih hw'.2 (by omega)⟩

theorem Memory.write_wf (m : Memory) (a : Nat) (v : Byte) (hw : m.wf = true) (ha : a < 2 ^ 32) :
    (Memory.write m a v).wf = true := Memory.write_wfFrom m a v hw (Nat.zero_le a) ha

/-! ## Several bytes -/

theorem Memory.writeWhere_wf (p : Nat → Bool) (m : Memory) (a : Nat) (bs : List Byte) (hw : m.wf = true)
    (ha : a + bs.length ≤ 2 ^ 32) : (Memory.writeWhere p m a bs).wf = true := by
  induction bs generalizing m a with
  | nil => exact hw
  | cons b bs ih =>
    rw [List.length_cons] at ha
    unfold Memory.writeWhere
    refine ih _ _ ?_ (by omega)
    split
    · exact Memory.write_wf m a b hw (by omega)
    · exact hw

theorem Memory.read_writeWhere_other (p : Nat → Bool) (m : Memory) (a b : Nat) (bs : List Byte)
    (h : b < a ∨ a + bs.length ≤ b) : Memory.read (Memory.writeWhere p m a bs) b = Memory.read m b := by
  induction bs generalizing m a with
  | nil => rfl
  | cons v bs ih =>
    rw [List.length_cons] at h
    unfold Memory.writeWhere
    rw [ih _ _ (by omega)]
    split
    · exact Memory.read_write_other m a b v (by omega)
    · rfl

/-- A byte that `p` does not hold of keeps its value. -/
theorem Memory.read_writeWhere_not (p : Nat → Bool) (m : Memory) (a b : Nat) (bs : List Byte) (h : p b = false) :
    Memory.read (Memory.writeWhere p m a bs) b = Memory.read m b := by
  induction bs generalizing m a with
  | nil => rfl
  | cons v bs ih =>
    unfold Memory.writeWhere
    rw [ih]
    split
    · next hp => exact Memory.read_write_other m a b v (fun e => by simp [e, hp] at h)
    · rfl

/-- A byte that `p` holds of reads as it was written. -/
theorem Memory.read_writeWhere_at (p : Nat → Bool) (m : Memory) (a k : Nat) (bs : List Byte) (hw : m.wf = true)
    (ha : a + bs.length ≤ 2 ^ 32) (hk : k < bs.length) (hp : p (a + k) = true) :
    Memory.read (Memory.writeWhere p m a bs) (a + k) = bs[k] := by
  induction bs generalizing m a k with
  | nil => exact absurd hk (Nat.not_lt_zero k)
  | cons v bs ih =>
    rw [List.length_cons] at ha hk
    unfold Memory.writeWhere
    have hw' : (if p a then Memory.write m a v else m).wf = true := by
      split
      · exact Memory.write_wf m a v hw (by omega)
      · exact hw
    cases k with
    | zero =>
      simp only [Nat.add_zero] at hp ⊢
      rw [Memory.read_writeWhere_other p _ (a + 1) a bs (by omega), if_pos hp]
      exact Memory.read_write_same m a v hw
    | succ k =>
      have e : a + (k + 1) = a + 1 + k := by omega
      rw [e] at hp ⊢
      exact ih _ _ _ hw' (by omega) (by omega) hp

@[simp] theorem wordBytes_length (v : Word) (n : Nat) : (wordBytes v n).length = n := by
  induction n generalizing v with
  | zero => rfl
  | succ n ih => simp [wordBytes, ih]

theorem wordBytes_getElem (v : Word) (n k : Nat) (h : k < (wordBytes v n).length) :
    (wordBytes v n)[k] = v.extractLsb' (8 * k) 8 := by
  induction n generalizing v k with
  | zero => simp at h
  | succ n ih =>
    cases k with
    | zero => ext j hj; simp [wordBytes]
    | succ k =>
      simp only [wordBytes, List.getElem_cons_succ, ih]
      ext j hj
      simp only [BitVec.getElem_extractLsb', BitVec.getLsbD_ushiftRight]
      congr 1
      omega

@[simp] theorem freeBytes_length (steps k n : Nat) : (freeBytes steps k n).length = n := by
  induction n generalizing k with
  | zero => rfl
  | succ n ih => simp [freeBytes, ih]

theorem Memory.restore_wf (m : Memory) (cs : List Host.Cell) (hw : m.wf = true) (hc : ∀ c ∈ cs, c.1 < 2 ^ 32) :
    (Memory.restore m cs).wf = true := by
  induction cs generalizing m with
  | nil => exact hw
  | cons c cs ih =>
    exact ih _ (Memory.write_wf m c.1 c.2 hw (hc c (by simp))) fun d hd => hc d (by simp [hd])

theorem placeParcel_wf (p : BitVec 16) (a : Word) (m : Memory) (hw : m.wf = true) : (placeParcel p a m).wf = true :=
  Memory.write_wf _ _ _ (Memory.write_wf _ _ _ hw a.isLt) (a + 1).isLt

theorem placeWord_wf (w : Word) (s : State) (hw : s.mem.wf = true) : (placeWord w s).mem.wf = true :=
  placeParcel_wf _ _ _ (placeParcel_wf _ _ _ hw)

theorem reset_memory_wf : State.reset.mem.wf = true := rfl

/-! ## Reads of several bytes -/

theorem Memory.readLE_one (m : Memory) (a : Nat) : Memory.readLE m a 1 = (Memory.read m a).setWidth 32 := by
  simp [Memory.readLE]

theorem Memory.readLE_two (m : Memory) (a : Nat) :
    Memory.readLE m a 2 = (Memory.read m (a + 1) ++ Memory.read m a).setWidth 32 := by
  simp only [Memory.readLE]
  generalize Memory.read m a = x
  generalize Memory.read m (a + 1) = y
  apply BitVec.eq_of_getLsbD_eq
  intro i hi
  simp only [BitVec.getLsbD_or, BitVec.getLsbD_shiftLeft, BitVec.getLsbD_setWidth, BitVec.getLsbD_append,
    BitVec.ofNat_eq_ofNat, BitVec.getLsbD_zero]
  interval_cases i <;> simp

theorem Memory.readLE_four (m : Memory) (a : Nat) :
    Memory.readLE m a 4
      = Memory.read m (a + 3) ++ Memory.read m (a + 2) ++ Memory.read m (a + 1) ++ Memory.read m a := by
  simp only [Memory.readLE]
  generalize Memory.read m a = x
  generalize Memory.read m (a + 1) = y
  generalize Memory.read m (a + 2) = z
  generalize Memory.read m (a + 3) = w
  apply BitVec.eq_of_getLsbD_eq
  intro i hi
  simp only [BitVec.getLsbD_or, BitVec.getLsbD_shiftLeft, BitVec.getLsbD_setWidth, BitVec.getLsbD_append,
    BitVec.ofNat_eq_ofNat, BitVec.getLsbD_zero]
  interval_cases i <;> simp

/-! ## The map -/

theorem readable_iff (c : Config) (a n : Nat) :
    readable c a n = true ↔ ∀ k : Nat, k < n → isMapped c (a + k) = true := by
  induction n generalizing a with
  | zero => simp [readable]
  | succ n ih =>
    simp only [readable, Bool.and_eq_true, ih]
    constructor
    · rintro ⟨h0, h⟩ k hk
      cases k with
      | zero => exact h0
      | succ k => rw [show a + (k + 1) = a + 1 + k by omega]; exact h k (by omega)
    · intro h
      exact ⟨h 0 (by omega), fun k hk => by rw [show a + 1 + k = a + (k + 1) by omega]; exact h _ (by omega)⟩

theorem writable_iff (c : Config) (a n : Nat) :
    writable c a n = true ↔ ∀ k : Nat, k < n → byteWritable c (a + k) = true := by
  induction n generalizing a with
  | zero => simp [writable]
  | succ n ih =>
    simp only [writable, Bool.and_eq_true, ih]
    constructor
    · rintro ⟨h0, h⟩ k hk
      cases k with
      | zero => exact h0
      | succ k => rw [show a + (k + 1) = a + 1 + k by omega]; exact h k (by omega)
    · intro h
      exact ⟨h 0 (by omega), fun k hk => by rw [show a + 1 + k = a + (k + 1) by omega]; exact h _ (by omega)⟩

/-- RAM is mapped and writable. -/
theorem isRam_mapped_writable (c : Config) (a : Nat) (h : isRam c a = true) :
    isMapped c a = true ∧ byteWritable c a = true := by
  unfold isRam at h
  unfold isMapped byteWritable
  split at h
  · next e => simp [e]
  · cases h

end Sys2Proof.Machine
end

