-- ==== Sys2Proof/Laws/Eclic.lean ====
section
/-! SUPPORT. The list of ECLIC sources after an update, a sampling, a claim or a write, its byte registers as
words, and the ECLIC's invariant. -/

namespace Sys2Proof.Machine

/-! ## The list of sources -/

theorem updateSource_getElem? (f : Source → Source) (i : Nat) (l : List Source) (j : Nat) :
    (updateSource f i l)[j]? = if j = i then l[j]?.map f else l[j]? := by
  induction l generalizing i j with
  | nil => cases i <;> simp [updateSource]
  | cons x l ih =>
    cases i with
    | zero => cases j <;> simp [updateSource]
    | succ i => cases j <;> simp [updateSource, ih]

@[simp] theorem updateSource_length (f : Source → Source) (i : Nat) (l : List Source) :
    (updateSource f i l).length = l.length := by
  induction l generalizing i with
  | nil => cases i <;> rfl
  | cons x l ih => cases i <;> simp [updateSource, ih]

theorem updateSource_updateSource (f g : Source → Source) (i : Nat) (l : List Source) :
    updateSource f i (updateSource g i l) = updateSource (fun src => f (g src)) i l := by
  induction l generalizing i with
  | nil => cases i <;> rfl
  | cons x l ih => cases i <;> simp [updateSource, ih]

theorem mem_updateSource {f : Source → Source} {i : Nat} {l : List Source} {x : Source}
    (h : x ∈ updateSource f i l) : x ∈ l ∨ ∃ y ∈ l, x = f y := by
  induction l generalizing i with
  | nil => cases i <;> simp [updateSource] at h
  | cons y l ih =>
    cases i with
    | zero =>
      rcases List.mem_cons.1 h with rfl | h
      · exact .inr ⟨y, by simp, rfl⟩
      · exact .inl (by simp [h])
    | succ i =>
      rcases List.mem_cons.1 h with rfl | h
      · exact .inl (by simp)
      · rcases ih h with h | ⟨z, hz, e⟩
        · exact .inl (by simp [h])
        · exact .inr ⟨z, by simp [hz], e⟩

theorem sampleSources_getElem? (input : Nat → Bool) (i : Nat) (l : List Source) (j : Nat) :
    (sampleSources input i l)[j]? = l[j]?.map (sampleSource (input (i + j))) := by
  induction l generalizing i j with
  | nil => rfl
  | cons x l ih =>
    cases j with
    | zero => simp [sampleSources]
    | succ j => simp [sampleSources, ih, Nat.add_assoc, Nat.add_comm 1 j]

@[simp] theorem sampleSources_length (input : Nat → Bool) (i : Nat) (l : List Source) :
    (sampleSources input i l).length = l.length := by
  induction l generalizing i with
  | nil => rfl
  | cons x l ih => simp [sampleSources, ih]

theorem mem_sampleSources {input : Nat → Bool} {i : Nat} {l : List Source} {x : Source}
    (h : x ∈ sampleSources input i l) : ∃ y ∈ l, ∃ b : Bool, x = sampleSource b y := by
  induction l generalizing i with
  | nil => simp [sampleSources] at h
  | cons y l ih =>
    rcases List.mem_cons.1 h with rfl | h
    · exact ⟨y, by simp, _, rfl⟩
    · obtain ⟨z, hz, e⟩ := ih h
      exact ⟨z, by simp [hz], e⟩

@[simp] theorem sampleSource_ctl (b : Bool) (src : Source) : (sampleSource b src).ctl = src.ctl := rfl

/-! ## Claims and writes -/

theorem claim_getElem? (e : Eclic) (id j : Nat) :
    (claim e id).sources[j]?
      = if j = id then e.sources[j]?.map (fun src => if src.edge then { src with ip := false } else src)
        else e.sources[j]? := updateSource_getElem? _ id e.sources j

@[simp] theorem claim_nlbits (e : Eclic) (id : Nat) : (claim e id).nlbits = e.nlbits := rfl
@[simp] theorem claim_mth (e : Eclic) (id : Nat) : (claim e id).mth = e.mth := rfl

/-- What a byte write can do: cliccfg, mth, one source, or nothing. -/
theorem eclicWriteByte_cases (c : Config) (e : Eclic) (offset : Nat) (b : Byte) :
    (offset = 0x0 ∧ eclicWriteByte c e offset b = { e with nlbits := b.extractLsb' 1 4 }) ∨
    (offset = 0xB ∧ eclicWriteByte c e offset b = { e with mth := b }) ∨
    (0x1000 ≤ offset ∧ eclicWriteByte c e offset b = { e with
      sources := updateSource (fun src => sourceWrite c src ((offset - 0x1000) % 4) b) ((offset - 0x1000) / 4)
        e.sources }) ∨
    (offset ≠ 0x0 ∧ offset ≠ 0xB ∧ offset < 0x1000 ∧ eclicWriteByte c e offset b = e) := by
  unfold eclicWriteByte
  split
  · exact .inl ⟨by assumption, rfl⟩
  · split
    · exact .inr (.inl ⟨by assumption, rfl⟩)
    · split
      · exact .inr (.inr (.inl ⟨by assumption, rfl⟩))
      · exact .inr (.inr (.inr ⟨by assumption, by assumption, by omega, rfl⟩))

/-! ## The block of one source -/

theorem block_index (m i k : Nat) (hk : k < 4) : (m + 4 * i + k - m) / 4 = i ∧ (m + 4 * i + k - m) % 4 = k := by
  rw [Nat.add_assoc, Nat.add_sub_cancel_left]
  omega

/-- Byte `k` of the block of source `i`. -/
theorem eclicReadByte_source (c : Config) (e : Eclic) (i k : Nat) (src : Source) (hk : k < 4)
    (h : e.sources[i]? = some src) : eclicReadByte c e (0x1000 + 4 * i + k) = sourceByte src k := by
  obtain ⟨h1, h2⟩ := block_index 0x1000 i k hk
  unfold eclicReadByte
  rw [if_neg (by omega), if_neg (by omega), if_neg (by omega), if_pos (by omega), h1, h2, h]

/-- A write of byte `k` of the block of source `i` changes that source only. -/
theorem eclicWriteByte_source (c : Config) (e : Eclic) (i k : Nat) (b : Byte) (hk : k < 4) :
    eclicWriteByte c e (0x1000 + 4 * i + k) b
      = { e with sources := updateSource (fun src => sourceWrite c src k b) i e.sources } := by
  obtain ⟨h1, h2⟩ := block_index 0x1000 i k hk
  unfold eclicWriteByte
  rw [if_neg (by omega), if_neg (by omega), if_pos (by omega), h1, h2]

/-- A word of byte registers is their concatenation, the lowest address last. -/
theorem eclicRead_four (c : Config) (e : Eclic) (offset : Nat) :
    eclicRead c e offset 4 = eclicReadByte c e (offset + 3) ++ eclicReadByte c e (offset + 2)
      ++ eclicReadByte c e (offset + 1) ++ eclicReadByte c e offset := by
  simp only [eclicRead]
  generalize eclicReadByte c e offset = x
  generalize eclicReadByte c e (offset + 1) = y
  generalize eclicReadByte c e (offset + 2) = z
  generalize eclicReadByte c e (offset + 3) = w
  apply BitVec.eq_of_getLsbD_eq
  intro i hi
  simp only [BitVec.getLsbD_or, BitVec.getLsbD_shiftLeft, BitVec.getLsbD_setWidth, BitVec.getLsbD_append,
    BitVec.ofNat_eq_ofNat, BitVec.getLsbD_zero]
  interval_cases i <;> simp

/-- One and two byte registers. -/
theorem eclicRead_one (c : Config) (e : Eclic) (offset : Nat) :
    eclicRead c e offset 1 = (eclicReadByte c e offset).setWidth 32 := by simp [eclicRead]

theorem eclicRead_two (c : Config) (e : Eclic) (offset : Nat) :
    eclicRead c e offset 2 = (eclicReadByte c e (offset + 1) ++ eclicReadByte c e offset).setWidth 32 := by
  simp only [eclicRead]
  generalize eclicReadByte c e offset = x
  generalize eclicReadByte c e (offset + 1) = y
  apply BitVec.eq_of_getLsbD_eq
  intro i hi
  simp only [BitVec.getLsbD_or, BitVec.getLsbD_shiftLeft, BitVec.getLsbD_setWidth, BitVec.getLsbD_append,
    BitVec.ofNat_eq_ofNat, BitVec.getLsbD_zero]
  interval_cases i <;> simp

/-- The block of a source as a word is its four byte registers. -/
theorem sourceByte_eq (src : Source) (k : Nat) (hk : k < 4) :
    sourceByte src k = (sourceBlock src).extractLsb' (8 * k) 8 := by
  apply BitVec.eq_of_getLsbD_eq
  intro i hi
  have hb (b : Bool) (j : Nat) (h : j < 8) : (bitByte b).getLsbD j = (decide (j = 0) && b) := by
    cases b <;> interval_cases j <;> rfl
  interval_cases k <;>
    simp only [sourceByte, attrByte, sourceBlock, BitVec.getLsbD_extractLsb', BitVec.getLsbD_append, hb _ i hi] <;>
    interval_cases i <;> simp

/-- The byte registers below the blocks of the sources, and the offsets above them. -/
theorem eclicReadByte_global (c : Config) (e : Eclic) (offset : Nat)
    (h : offset < 0x1000 ∨ 0x1000 + 4 * e.sources.length ≤ offset) :
    eclicReadByte c e offset = globalByte c e offset := by
  unfold eclicReadByte globalByte
  split
  · rfl
  split
  · rfl
  split
  · rename_i h4
    apply BitVec.eq_of_getLsbD_eq
    intro i hi
    simp [clicinfoWord, hi, BitVec.getLsbD_ushiftRight]
  split
  · rename_i hle
    have : e.sources[(offset - 0x1000) / 4]? = none := by
      rw [List.getElem?_eq_none_iff]
      omega
    rw [this]
  · rfl

/-- The bytes from byte `k` on written to the block of source `i`, one after the other. -/
theorem eclicWrite_block (c : Config) (i : Nat) (bs : List Byte) (e : Eclic) (k : Nat) (h : k + bs.length ≤ 4) :
    eclicWrite c e (0x1000 + 4 * i + k) bs = { e with
      sources := updateSource
        (fun src => (bs.foldl (fun (p : Source × Nat) b => (sourceWrite c p.1 p.2 b, p.2 + 1)) (src, k)).1) i
        e.sources } := by
  induction bs generalizing e k with
  | nil =>
    have : ∀ (l : List Source) (i : Nat), updateSource (fun src => src) i l = l := by
      intro l
      induction l with
      | nil => intro i; cases i <;> rfl
      | cons x l ih => intro i; cases i <;> simp [updateSource, ih]
    simp [eclicWrite, this]
  | cons b bs ih =>
    have hk : k < 4 := by simp at h; omega
    rw [eclicWrite, eclicWriteByte_source c e i k b hk, Nat.add_assoc, ih _ _ (by simp at h; omega)]
    simp [updateSource_updateSource]

theorem shiftRight_setWidth_byte (v : Word) (m : Nat) : (v >>> m).setWidth 8 = v.extractLsb' m 8 := by
  apply BitVec.eq_of_getLsbD_eq
  intro i hi
  simp [hi]

/-- A store of `n` bytes inside the block of source `i` changes that source only, as `storedSource` says. -/
theorem eclicWrite_source (c : Config) (e : Eclic) (i k n : Nat) (v : Word) (h : k + n ≤ 4)
    (hn : n = 1 ∨ n = 2 ∨ n = 4) :
    eclicWrite c e (0x1000 + 4 * i + k) (wordBytes v n)
      = { e with sources := updateSource (fun src => storedSource c src k n v) i e.sources } := by
  have e0 : v.setWidth 8 = v.extractLsb' 0 8 := by simpa using shiftRight_setWidth_byte v 0
  rw [eclicWrite_block c i _ e k (by simpa using h)]
  congr 2; funext src
  have hk : k < 4 := by omega
  rcases hn with rfl | rfl | rfl <;> interval_cases k <;> try omega
  all_goals
    simp only [wordBytes, ← BitVec.shiftRight_add, shiftRight_setWidth_byte, e0, List.foldl, sourceWrite]
    obtain ⟨ip, ie, shv, edge, falling, ctl, prev⟩ := src
    cases edge <;> simp [storedSource]

/-! ## The invariant -/

theorem Eclic.reset_inv (c : Config) : (Eclic.reset c).Inv c := by
  refine ⟨by simp [Eclic.reset], fun src h => ?_⟩
  rw [List.eq_of_mem_replicate h]
  simp [Source.reset, ctlOnes]

theorem sourceWrite_ctl (c : Config) (src : Source) (k : Nat) (b : Byte) (h : src.ctl ||| ctlOnes c = src.ctl) :
    (sourceWrite c src k b).ctl ||| ctlOnes c = (sourceWrite c src k b).ctl := by
  unfold sourceWrite
  split
  · split <;> exact h
  · exact h
  · exact h
  · show b ||| ctlOnes c ||| ctlOnes c = b ||| ctlOnes c
    generalize ctlOnes c = x
    simp [BitVec.or_assoc]

theorem eclicWriteByte_inv (c : Config) (e : Eclic) (offset : Nat) (b : Byte) (h : e.Inv c) :
    (eclicWriteByte c e offset b).Inv c := by
  rcases eclicWriteByte_cases c e offset b with ⟨_, e'⟩ | ⟨_, e'⟩ | ⟨_, e'⟩ | ⟨_, _, _, e'⟩ <;> rw [e']
  · exact ⟨h.length, h.ctl⟩
  · exact ⟨h.length, h.ctl⟩
  · refine ⟨by simpa using h.length, fun src hs => ?_⟩
    rcases mem_updateSource hs with hs | ⟨y, hy, e⟩
    · exact h.ctl src hs
    · rw [e]; exact sourceWrite_ctl c y _ b (h.ctl y hy)
  · exact h

theorem eclicWrite_inv (c : Config) (e : Eclic) (offset : Nat) (bs : List Byte) (h : e.Inv c) :
    (eclicWrite c e offset bs).Inv c := by
  induction bs generalizing e offset with
  | nil => exact h
  | cons b bs ih => exact ih _ _ (eclicWriteByte_inv c e offset b h)

theorem claim_inv (c : Config) (e : Eclic) (id : Nat) (h : e.Inv c) : (claim e id).Inv c := by
  refine ⟨by simpa [claim] using h.length, fun src hs => ?_⟩
  rcases mem_updateSource hs with hs | ⟨y, hy, rfl⟩
  · exact h.ctl src hs
  · have := h.ctl y hy
    split <;> exact this

theorem sampleSources_inv (c : Config) (input : Nat → Bool) (e : Eclic) (h : e.Inv c) :
    Eclic.Inv c { e with sources := sampleSources input 0 e.sources } := by
  refine ⟨by simpa using h.length, fun src hs => ?_⟩
  obtain ⟨y, hy, b, rfl⟩ := mem_sampleSources hs
  exact h.ctl y hy

end Sys2Proof.Machine
end

