-- ==== Sys2Proof/Laws/Fetch.lean ====
section
/-! SUPPORT. What the fetch can do: the parcels it sees, the words it assembles, and where it stops. -/

namespace Sys2Proof.Machine

theorem storedSince_untouched {s : State} {a : Nat} (h : Untouched s a) : storedSince s.storeLog a = false := by
  cases hs : storedSince s.storeLog a with
  | false => rfl
  | true =>
    simp only [storedSince, List.any_eq_true, Bool.or_eq_true, beq_iff_eq] at hs
    obtain ⟨cells, hc, cell, hm, hs⟩ := hs
    have := h cells hc cell hm
    rcases hs with hs | hs
    · exact absurd hs this.1
    · exact absurd hs this.2

/-- A parcel that no store since the last fence.i touched is seen as memory holds it. -/
theorem parcelSeen_untouched {s : State} {a : Nat} (h : Untouched s a) (j : Nat) :
    parcelSeen s j a = s.mem.read (a + 1) ++ s.mem.read a := by
  simp [parcelSeen, storedSince_untouched h, Memory.readParcel]

/-- What the read of a parcel can do. -/
theorem fetchParcel_cases (s : State) (j : Nat) (a : Word) :
    (∃ offset, placeOf s.cfg a = .timer offset ∧ fetchParcel s j a = .timerWindow) ∨
    (∃ offset, placeOf s.cfg a = .eclic offset ∧ fetchParcel s j a
      = .ok (eclicReadByte s.cfg s.eclic (offset + 1) ++ eclicReadByte s.cfg s.eclic offset)) ∨
    (placeOf s.cfg a = .memory ∧ readable s.cfg a.toNat 2 = true
      ∧ fetchParcel s j a = .ok (parcelSeen s j a.toNat)) ∨
    (placeOf s.cfg a = .memory ∧ readable s.cfg a.toNat 2 = false ∧ fetchParcel s j a = .accessFault a) := by
  cases h : placeOf s.cfg a <;> cases hr : readable s.cfg a.toNat 2 <;> simp [fetchParcel, h, hr]

theorem fetchParcel_parcelAt {s : State} {a : Word} {p : BitVec 16} (h : ParcelAt s a p) (j : Nat) :
    fetchParcel s j a = .ok p := by
  rcases h with ⟨hp, hr, hu, rfl⟩ | ⟨offset, hp, rfl⟩
  · simp [fetchParcel, hp, hr, parcelSeen_untouched hu, halfAt]
  · simp [fetchParcel, hp]

theorem isHalf_iff (p : BitVec 16) : isHalf p = true ↔ p.extractLsb' 0 2 ≠ 3#2 := by simp [isHalf]

/-- The instruction word at pc is what the fetch gives. -/
theorem fetch_wordAtPc {s : State} {e : Encoding} (h : WordAtPc s e) : fetch s = .ok e := by
  cases e with
  | half low => simp [fetch, fetchParcel_parcelAt h.2, (isHalf_iff low).2 h.1]
  | full w =>
    obtain ⟨h1, h2, h3⟩ := h
    have e1 : (w.extractLsb' 0 16).extractLsb' 0 2 = w.extractLsb' 0 2 := by
      ext i hi; simp
    have hh : isHalf (w.extractLsb' 0 16) = false := by simp [isHalf, e1, h1]
    have e2 : w.extractLsb' 16 16 ++ w.extractLsb' 0 16 = w := by
      apply BitVec.eq_of_getLsbD_eq
      intro i hi
      simp only [BitVec.getLsbD_append, BitVec.getLsbD_extractLsb']
      split
      · simp_all
      · rename_i hlt
        have h16 : i - 16 < 16 := by omega
        have hi' : 16 + (i - 16) = i := by omega
        simp [h16, hi']
    have hn : fetchParcel s 1 (s.pc + 2#32) = .ok (w.extractLsb' 16 16) := fetchParcel_parcelAt h3 1
    simp [fetch, fetchParcel_parcelAt h2, hn, hh, e2]

end Sys2Proof.Machine
end

