-- ==== Sys2Proof/Laws/Forms.lean ====
section
/-! SUPPORT. Each form of load is `loadOp`, and each form of store `storeOp`, at its own operands. -/

namespace Sys2Proof.Machine

/-- A load of a word gives the word. -/
theorem LoadForm.value_word (p : LoadForm) (h : p.bytes = 4) (v : Word) : p.value v = v := by
  obtain ⟨i, len, rd, a, n, signed⟩ := p
  subst h
  cases signed <;> simp [LoadForm.value]

theorem extractLsb'_zero_eq_setWidth (v : Word) (n : Nat) : v.extractLsb' 0 n = v.setWidth n := by
  apply BitVec.eq_of_getLsbD_eq
  intro i hi
  simp [hi]

/-- What a load does, whatever its form, and how many bytes it reads. -/
theorem exec_loadForms {s : State} {rd rs1 : Reg} {imm : BitVec 12} {d b : CReg} {u7 : BitVec 7} {u8 : BitVec 8}
    {p : LoadForm} (h : p ∈ loadForms s rd rs1 imm d b u7 u8) :
    exec p.instr s = loadOp p.len p.bytes p.value p.rd p.addr s ∧ (p.bytes = 1 ∨ p.bytes = 2 ∨ p.bytes = 4) := by
  have ext : signByte = (LoadForm.value ⟨.ecall, 0, 0, 0, 1, true⟩) ∧ signHalf = (LoadForm.value ⟨.ecall, 0, 0, 0, 2, true⟩)
      ∧ zeroByte = (LoadForm.value ⟨.ecall, 0, 0, 0, 1, false⟩) ∧ zeroHalf = (LoadForm.value ⟨.ecall, 0, 0, 0, 2, false⟩)
      ∧ wholeWord = (LoadForm.value ⟨.ecall, 0, 0, 0, 4, false⟩) := by
    refine ⟨?_, ?_, ?_, ?_, ?_⟩ <;> funext v <;>
      simp [LoadForm.value, signByte, signHalf, zeroByte, zeroHalf, wholeWord, sext, zext, extractLsb'_zero_eq_setWidth]
  obtain ⟨e1, e2, e3, e4, e5⟩ := ext
  simp only [loadForms, List.mem_cons, List.not_mem_nil, or_false] at h
  rcases h with rfl | rfl | rfl | rfl | rfl | rfl | rfl <;> refine ⟨?_, by simp⟩
  · show loadOp 4 1 signByte _ _ _ = _
    rw [e1]; rfl
  · show loadOp 4 2 signHalf _ _ _ = _
    rw [e2]; rfl
  · show loadOp 4 4 wholeWord _ _ _ = _
    rw [e5]; rfl
  · show loadOp 4 1 zeroByte _ _ _ = _
    rw [e3]; rfl
  · show loadOp 4 2 zeroHalf _ _ _ = _
    rw [e4]; rfl
  · show loadOp 2 4 wholeWord _ _ _ = _
    rw [e5]; rfl
  · show loadOp 2 4 wholeWord _ _ _ = _
    rw [e5]; rfl

/-- What a store does, whatever its form, and how many bytes it stores. -/
theorem exec_storeForms {s : State} {rs1 rs2 : Reg} {imm : BitVec 12} {d b : CReg} {u7 : BitVec 7} {u8 : BitVec 8}
    {n : BitVec 5} {p : StoreForm} (h : p ∈ storeForms s rs1 rs2 imm d b u7 u8 n) :
    exec p.instr s = storeOp p.len p.bytes p.value p.addr s ∧ (p.bytes = 1 ∨ p.bytes = 2 ∨ p.bytes = 4) := by
  have hn : (zext n <<< 2 : Word) = 4 * n.setWidth 32 := by
    unfold zext
    bv_omega
  by_cases hp : s.priv = .machine
  · simp only [storeForms, hp, if_true, List.cons_append, List.nil_append, List.mem_cons, List.not_mem_nil, or_false] at h
    rcases h with rfl | rfl | rfl | rfl | rfl | rfl | rfl | rfl <;> refine ⟨?_, by simp⟩
    · rfl
    · rfl
    · rfl
    · rfl
    · rfl
    all_goals
      simp only [exec, execCsrrwi, csrAccess, csrAt, accessAllowed, csrClass, hp]
      simp [pushOp, hn, csrRead, regSp]
  · simp only [storeForms, hp, if_false, List.append_nil, List.mem_cons, List.not_mem_nil, or_false] at h
    rcases h with rfl | rfl | rfl | rfl | rfl <;> exact ⟨rfl, by simp⟩

end Sys2Proof.Machine
end

