-- ==== Sys2Proof/Laws/State.lean ====
section
/-! SUPPORT. The fields of a state after each update of it, one lemma for each field and update. -/

namespace Sys2Proof.Machine

@[simp] theorem setReg_cfg (s : State) (r : Reg) (v : Word) : (setReg s r v).cfg = s.cfg := by unfold setReg; split <;> rfl
@[simp] theorem setReg_pc (s : State) (r : Reg) (v : Word) : (setReg s r v).pc = s.pc := by unfold setReg; split <;> rfl
@[simp] theorem setReg_priv (s : State) (r : Reg) (v : Word) : (setReg s r v).priv = s.priv := by unfold setReg; split <;> rfl
@[simp] theorem setReg_csr (s : State) (r : Reg) (v : Word) : (setReg s r v).csr = s.csr := by unfold setReg; split <;> rfl
@[simp] theorem setReg_mcycle (s : State) (r : Reg) (v : Word) : (setReg s r v).mcycle = s.mcycle := by unfold setReg; split <;> rfl
@[simp] theorem setReg_minstret (s : State) (r : Reg) (v : Word) : (setReg s r v).minstret = s.minstret := by unfold setReg; split <;> rfl
@[simp] theorem setReg_timer (s : State) (r : Reg) (v : Word) : (setReg s r v).timer = s.timer := by unfold setReg; split <;> rfl
@[simp] theorem setReg_eclic (s : State) (r : Reg) (v : Word) : (setReg s r v).eclic = s.eclic := by unfold setReg; split <;> rfl
@[simp] theorem setReg_mem (s : State) (r : Reg) (v : Word) : (setReg s r v).mem = s.mem := by unfold setReg; split <;> rfl
@[simp] theorem setReg_reservation (s : State) (r : Reg) (v : Word) : (setReg s r v).reservation = s.reservation := by unfold setReg; split <;> rfl
@[simp] theorem setReg_nmiPrev (s : State) (r : Reg) (v : Word) : (setReg s r v).nmiPrev = s.nmiPrev := by unfold setReg; split <;> rfl
@[simp] theorem setReg_nmiPending (s : State) (r : Reg) (v : Word) : (setReg s r v).nmiPending = s.nmiPending := by unfold setReg; split <;> rfl
@[simp] theorem setReg_sleeping (s : State) (r : Reg) (v : Word) : (setReg s r v).sleeping = s.sleeping := by unfold setReg; split <;> rfl
@[simp] theorem setReg_rxEvt (s : State) (r : Reg) (v : Word) : (setReg s r v).rxEvt = s.rxEvt := by unfold setReg; split <;> rfl
@[simp] theorem setReg_txPulses (s : State) (r : Reg) (v : Word) : (setReg s r v).txPulses = s.txPulses := by unfold setReg; split <;> rfl
@[simp] theorem setReg_storeLog (s : State) (r : Reg) (v : Word) : (setReg s r v).storeLog = s.storeLog := by unfold setReg; split <;> rfl
@[simp] theorem setReg_errorReports (s : State) (r : Reg) (v : Word) : (setReg s r v).errorReports = s.errorReports := by unfold setReg; split <;> rfl
@[simp] theorem setReg_env (s : State) (r : Reg) (v : Word) : (setReg s r v).env = s.env := by unfold setReg; split <;> rfl
@[simp] theorem setReg_envRest (s : State) (r : Reg) (v : Word) : (setReg s r v).envRest = s.envRest := by unfold setReg; split <;> rfl
@[simp] theorem setReg_steps (s : State) (r : Reg) (v : Word) : (setReg s r v).steps = s.steps := by unfold setReg; split <;> rfl

@[simp] theorem retireTo_cfg (a : Word) (s : State) : (retireTo a s).cfg = s.cfg := rfl
@[simp] theorem retireTo_regs (a : Word) (s : State) : (retireTo a s).regs = s.regs := rfl
@[simp] theorem retireTo_pc (a : Word) (s : State) : (retireTo a s).pc = a := rfl
@[simp] theorem retireTo_priv (a : Word) (s : State) : (retireTo a s).priv = s.priv := rfl
@[simp] theorem retireTo_csr (a : Word) (s : State) : (retireTo a s).csr = s.csr := rfl
@[simp] theorem retireTo_mcycle (a : Word) (s : State) : (retireTo a s).mcycle = s.mcycle := rfl
@[simp] theorem retireTo_minstret (a : Word) (s : State) : (retireTo a s).minstret = countRetired s := rfl
@[simp] theorem retireTo_timer (a : Word) (s : State) : (retireTo a s).timer = s.timer := rfl
@[simp] theorem retireTo_eclic (a : Word) (s : State) : (retireTo a s).eclic = s.eclic := rfl
@[simp] theorem retireTo_mem (a : Word) (s : State) : (retireTo a s).mem = s.mem := rfl
@[simp] theorem retireTo_reservation (a : Word) (s : State) : (retireTo a s).reservation = s.reservation := rfl
@[simp] theorem retireTo_nmiPrev (a : Word) (s : State) : (retireTo a s).nmiPrev = s.nmiPrev := rfl
@[simp] theorem retireTo_nmiPending (a : Word) (s : State) : (retireTo a s).nmiPending = s.nmiPending := rfl
@[simp] theorem retireTo_sleeping (a : Word) (s : State) : (retireTo a s).sleeping = s.sleeping := rfl
@[simp] theorem retireTo_rxEvt (a : Word) (s : State) : (retireTo a s).rxEvt = s.rxEvt := rfl
@[simp] theorem retireTo_txPulses (a : Word) (s : State) : (retireTo a s).txPulses = s.txPulses := rfl
@[simp] theorem retireTo_storeLog (a : Word) (s : State) : (retireTo a s).storeLog = s.storeLog := rfl
@[simp] theorem retireTo_errorReports (a : Word) (s : State) : (retireTo a s).errorReports = s.errorReports := rfl
@[simp] theorem retireTo_env (a : Word) (s : State) : (retireTo a s).env = s.env := rfl
@[simp] theorem retireTo_envRest (a : Word) (s : State) : (retireTo a s).envRest = s.envRest := rfl
@[simp] theorem retireTo_steps (a : Word) (s : State) : (retireTo a s).steps = s.steps := rfl

@[simp] theorem retire_cfg (n : Word) (s : State) : (retire n s).cfg = s.cfg := rfl
@[simp] theorem retire_regs (n : Word) (s : State) : (retire n s).regs = s.regs := rfl
@[simp] theorem retire_pc (n : Word) (s : State) : (retire n s).pc = s.pc + n := rfl
@[simp] theorem retire_priv (n : Word) (s : State) : (retire n s).priv = s.priv := rfl
@[simp] theorem retire_csr (n : Word) (s : State) : (retire n s).csr = s.csr := rfl
@[simp] theorem retire_mcycle (n : Word) (s : State) : (retire n s).mcycle = s.mcycle := rfl
@[simp] theorem retire_minstret (n : Word) (s : State) : (retire n s).minstret = countRetired s := rfl
@[simp] theorem retire_timer (n : Word) (s : State) : (retire n s).timer = s.timer := rfl
@[simp] theorem retire_eclic (n : Word) (s : State) : (retire n s).eclic = s.eclic := rfl
@[simp] theorem retire_mem (n : Word) (s : State) : (retire n s).mem = s.mem := rfl
@[simp] theorem retire_reservation (n : Word) (s : State) : (retire n s).reservation = s.reservation := rfl
@[simp] theorem retire_nmiPrev (n : Word) (s : State) : (retire n s).nmiPrev = s.nmiPrev := rfl
@[simp] theorem retire_nmiPending (n : Word) (s : State) : (retire n s).nmiPending = s.nmiPending := rfl
@[simp] theorem retire_sleeping (n : Word) (s : State) : (retire n s).sleeping = s.sleeping := rfl
@[simp] theorem retire_rxEvt (n : Word) (s : State) : (retire n s).rxEvt = s.rxEvt := rfl
@[simp] theorem retire_txPulses (n : Word) (s : State) : (retire n s).txPulses = s.txPulses := rfl
@[simp] theorem retire_storeLog (n : Word) (s : State) : (retire n s).storeLog = s.storeLog := rfl
@[simp] theorem retire_errorReports (n : Word) (s : State) : (retire n s).errorReports = s.errorReports := rfl
@[simp] theorem retire_env (n : Word) (s : State) : (retire n s).env = s.env := rfl
@[simp] theorem retire_envRest (n : Word) (s : State) : (retire n s).envRest = s.envRest := rfl
@[simp] theorem retire_steps (n : Word) (s : State) : (retire n s).steps = s.steps := rfl

@[simp] theorem takeException_cfg (epc : Word) (c : BitVec 12) (v : Word) (s : State) : (takeException epc c v s).cfg = s.cfg := rfl
@[simp] theorem takeException_regs (epc : Word) (c : BitVec 12) (v : Word) (s : State) : (takeException epc c v s).regs = s.regs := rfl
@[simp] theorem takeException_pc (epc : Word) (c : BitVec 12) (v : Word) (s : State) : (takeException epc c v s).pc = exceptionEntry s.csr := rfl
@[simp] theorem takeException_priv (epc : Word) (c : BitVec 12) (v : Word) (s : State) : (takeException epc c v s).priv = .machine := rfl
@[simp] theorem takeException_mcycle (epc : Word) (c : BitVec 12) (v : Word) (s : State) : (takeException epc c v s).mcycle = s.mcycle := rfl
@[simp] theorem takeException_minstret (epc : Word) (c : BitVec 12) (v : Word) (s : State) : (takeException epc c v s).minstret = s.minstret := rfl
@[simp] theorem takeException_timer (epc : Word) (c : BitVec 12) (v : Word) (s : State) : (takeException epc c v s).timer = s.timer := rfl
@[simp] theorem takeException_eclic (epc : Word) (c : BitVec 12) (v : Word) (s : State) : (takeException epc c v s).eclic = s.eclic := rfl
@[simp] theorem takeException_mem (epc : Word) (c : BitVec 12) (v : Word) (s : State) : (takeException epc c v s).mem = s.mem := rfl
@[simp] theorem takeException_reservation (epc : Word) (c : BitVec 12) (v : Word) (s : State) : (takeException epc c v s).reservation = none := rfl
@[simp] theorem takeException_nmiPrev (epc : Word) (c : BitVec 12) (v : Word) (s : State) : (takeException epc c v s).nmiPrev = s.nmiPrev := rfl
@[simp] theorem takeException_nmiPending (epc : Word) (c : BitVec 12) (v : Word) (s : State) : (takeException epc c v s).nmiPending = s.nmiPending := rfl
@[simp] theorem takeException_sleeping (epc : Word) (c : BitVec 12) (v : Word) (s : State) : (takeException epc c v s).sleeping = s.sleeping := rfl
@[simp] theorem takeException_rxEvt (epc : Word) (c : BitVec 12) (v : Word) (s : State) : (takeException epc c v s).rxEvt = s.rxEvt := rfl
@[simp] theorem takeException_txPulses (epc : Word) (c : BitVec 12) (v : Word) (s : State) : (takeException epc c v s).txPulses = s.txPulses := rfl
@[simp] theorem takeException_storeLog (epc : Word) (c : BitVec 12) (v : Word) (s : State) : (takeException epc c v s).storeLog = s.storeLog := rfl
@[simp] theorem takeException_errorReports (epc : Word) (c : BitVec 12) (v : Word) (s : State) : (takeException epc c v s).errorReports = s.errorReports := rfl
@[simp] theorem takeException_env (epc : Word) (c : BitVec 12) (v : Word) (s : State) : (takeException epc c v s).env = s.env := rfl
@[simp] theorem takeException_envRest (epc : Word) (c : BitVec 12) (v : Word) (s : State) : (takeException epc c v s).envRest = s.envRest := rfl
@[simp] theorem takeException_steps (epc : Word) (c : BitVec 12) (v : Word) (s : State) : (takeException epc c v s).steps = s.steps := rfl

@[simp] theorem enterNmi_cfg (s : State) : (enterNmi s).cfg = s.cfg := rfl
@[simp] theorem enterNmi_regs (s : State) : (enterNmi s).regs = s.regs := rfl
@[simp] theorem enterNmi_pc (s : State) : (enterNmi s).pc = nmiEntryAddress s.cfg s.csr := rfl
@[simp] theorem enterNmi_priv (s : State) : (enterNmi s).priv = .machine := rfl
@[simp] theorem enterNmi_mcycle (s : State) : (enterNmi s).mcycle = s.mcycle := rfl
@[simp] theorem enterNmi_minstret (s : State) : (enterNmi s).minstret = s.minstret := rfl
@[simp] theorem enterNmi_timer (s : State) : (enterNmi s).timer = s.timer := rfl
@[simp] theorem enterNmi_eclic (s : State) : (enterNmi s).eclic = s.eclic := rfl
@[simp] theorem enterNmi_mem (s : State) : (enterNmi s).mem = s.mem := rfl
@[simp] theorem enterNmi_reservation (s : State) : (enterNmi s).reservation = none := rfl
@[simp] theorem enterNmi_nmiPrev (s : State) : (enterNmi s).nmiPrev = s.nmiPrev := rfl
@[simp] theorem enterNmi_nmiPending (s : State) : (enterNmi s).nmiPending = false := rfl
@[simp] theorem enterNmi_sleeping (s : State) : (enterNmi s).sleeping = false := rfl
@[simp] theorem enterNmi_rxEvt (s : State) : (enterNmi s).rxEvt = s.rxEvt := rfl
@[simp] theorem enterNmi_txPulses (s : State) : (enterNmi s).txPulses = s.txPulses := rfl
@[simp] theorem enterNmi_storeLog (s : State) : (enterNmi s).storeLog = s.storeLog := rfl
@[simp] theorem enterNmi_errorReports (s : State) : (enterNmi s).errorReports = s.errorReports := rfl
@[simp] theorem enterNmi_env (s : State) : (enterNmi s).env = s.env := rfl
@[simp] theorem enterNmi_envRest (s : State) : (enterNmi s).envRest = s.envRest := rfl
@[simp] theorem enterNmi_steps (s : State) : (enterNmi s).steps = s.steps := rfl

@[simp] theorem reportError_cfg (s : State) : (reportError s).cfg = s.cfg := rfl
@[simp] theorem reportError_regs (s : State) : (reportError s).regs = s.regs := rfl
@[simp] theorem reportError_pc (s : State) : (reportError s).pc = s.pc := rfl
@[simp] theorem reportError_priv (s : State) : (reportError s).priv = s.priv := rfl
@[simp] theorem reportError_csr (s : State) : (reportError s).csr = s.csr := rfl
@[simp] theorem reportError_mcycle (s : State) : (reportError s).mcycle = s.mcycle := rfl
@[simp] theorem reportError_minstret (s : State) : (reportError s).minstret = s.minstret := rfl
@[simp] theorem reportError_timer (s : State) : (reportError s).timer = s.timer := rfl
@[simp] theorem reportError_eclic (s : State) : (reportError s).eclic = s.eclic := rfl
@[simp] theorem reportError_mem (s : State) : (reportError s).mem = s.mem := rfl
@[simp] theorem reportError_reservation (s : State) : (reportError s).reservation = s.reservation := rfl
@[simp] theorem reportError_nmiPrev (s : State) : (reportError s).nmiPrev = s.nmiPrev := rfl
@[simp] theorem reportError_nmiPending (s : State) : (reportError s).nmiPending = s.nmiPending := rfl
@[simp] theorem reportError_sleeping (s : State) : (reportError s).sleeping = s.sleeping := rfl
@[simp] theorem reportError_rxEvt (s : State) : (reportError s).rxEvt = s.rxEvt := rfl
@[simp] theorem reportError_txPulses (s : State) : (reportError s).txPulses = s.txPulses := rfl
@[simp] theorem reportError_storeLog (s : State) : (reportError s).storeLog = s.storeLog := rfl
@[simp] theorem reportError_errorReports (s : State) : (reportError s).errorReports = s.errorReports + 1 := rfl
@[simp] theorem reportError_env (s : State) : (reportError s).env = s.env := rfl
@[simp] theorem reportError_envRest (s : State) : (reportError s).envRest = s.envRest := rfl
@[simp] theorem reportError_steps (s : State) : (reportError s).steps = s.steps := rfl

@[simp] theorem storeBytes_cfg (p : Nat → Bool) (a : Word) (bs : List Byte) (s : State) : (storeBytes p a bs s).cfg = s.cfg := rfl
@[simp] theorem storeBytes_regs (p : Nat → Bool) (a : Word) (bs : List Byte) (s : State) : (storeBytes p a bs s).regs = s.regs := rfl
@[simp] theorem storeBytes_pc (p : Nat → Bool) (a : Word) (bs : List Byte) (s : State) : (storeBytes p a bs s).pc = s.pc := rfl
@[simp] theorem storeBytes_priv (p : Nat → Bool) (a : Word) (bs : List Byte) (s : State) : (storeBytes p a bs s).priv = s.priv := rfl
@[simp] theorem storeBytes_csr (p : Nat → Bool) (a : Word) (bs : List Byte) (s : State) : (storeBytes p a bs s).csr = s.csr := rfl
@[simp] theorem storeBytes_mcycle (p : Nat → Bool) (a : Word) (bs : List Byte) (s : State) : (storeBytes p a bs s).mcycle = s.mcycle := rfl
@[simp] theorem storeBytes_minstret (p : Nat → Bool) (a : Word) (bs : List Byte) (s : State) : (storeBytes p a bs s).minstret = s.minstret := rfl
@[simp] theorem storeBytes_timer (p : Nat → Bool) (a : Word) (bs : List Byte) (s : State) : (storeBytes p a bs s).timer = s.timer := rfl
@[simp] theorem storeBytes_eclic (p : Nat → Bool) (a : Word) (bs : List Byte) (s : State) : (storeBytes p a bs s).eclic = s.eclic := rfl
@[simp] theorem storeBytes_mem (p : Nat → Bool) (a : Word) (bs : List Byte) (s : State) : (storeBytes p a bs s).mem = Memory.writeWhere p s.mem a.toNat bs := rfl
@[simp] theorem storeBytes_reservation (p : Nat → Bool) (a : Word) (bs : List Byte) (s : State) : (storeBytes p a bs s).reservation = s.reservation := rfl
@[simp] theorem storeBytes_nmiPrev (p : Nat → Bool) (a : Word) (bs : List Byte) (s : State) : (storeBytes p a bs s).nmiPrev = s.nmiPrev := rfl
@[simp] theorem storeBytes_nmiPending (p : Nat → Bool) (a : Word) (bs : List Byte) (s : State) : (storeBytes p a bs s).nmiPending = s.nmiPending := rfl
@[simp] theorem storeBytes_sleeping (p : Nat → Bool) (a : Word) (bs : List Byte) (s : State) : (storeBytes p a bs s).sleeping = s.sleeping := rfl
@[simp] theorem storeBytes_rxEvt (p : Nat → Bool) (a : Word) (bs : List Byte) (s : State) : (storeBytes p a bs s).rxEvt = s.rxEvt := rfl
@[simp] theorem storeBytes_txPulses (p : Nat → Bool) (a : Word) (bs : List Byte) (s : State) : (storeBytes p a bs s).txPulses = s.txPulses := rfl
@[simp] theorem storeBytes_storeLog (p : Nat → Bool) (a : Word) (bs : List Byte) (s : State) : (storeBytes p a bs s).storeLog = Memory.cellsAt s.mem a.toNat bs.length :: s.storeLog := rfl
@[simp] theorem storeBytes_errorReports (p : Nat → Bool) (a : Word) (bs : List Byte) (s : State) : (storeBytes p a bs s).errorReports = s.errorReports := rfl
@[simp] theorem storeBytes_env (p : Nat → Bool) (a : Word) (bs : List Byte) (s : State) : (storeBytes p a bs s).env = s.env := rfl
@[simp] theorem storeBytes_envRest (p : Nat → Bool) (a : Word) (bs : List Byte) (s : State) : (storeBytes p a bs s).envRest = s.envRest := rfl
@[simp] theorem storeBytes_steps (p : Nat → Bool) (a : Word) (bs : List Byte) (s : State) : (storeBytes p a bs s).steps = s.steps := rfl

@[simp] theorem interruptEntered_cfg (w : Candidate) (s : State) : (interruptEntered w s).cfg = s.cfg := rfl
@[simp] theorem interruptEntered_regs (w : Candidate) (s : State) : (interruptEntered w s).regs = s.regs := rfl
@[simp] theorem interruptEntered_pc (w : Candidate) (s : State) : (interruptEntered w s).pc = s.pc := rfl
@[simp] theorem interruptEntered_priv (w : Candidate) (s : State) : (interruptEntered w s).priv = .machine := rfl
@[simp] theorem interruptEntered_mcycle (w : Candidate) (s : State) : (interruptEntered w s).mcycle = s.mcycle := rfl
@[simp] theorem interruptEntered_minstret (w : Candidate) (s : State) : (interruptEntered w s).minstret = s.minstret := rfl
@[simp] theorem interruptEntered_timer (w : Candidate) (s : State) : (interruptEntered w s).timer = s.timer := rfl
@[simp] theorem interruptEntered_eclic (w : Candidate) (s : State) : (interruptEntered w s).eclic = s.eclic := rfl
@[simp] theorem interruptEntered_mem (w : Candidate) (s : State) : (interruptEntered w s).mem = s.mem := rfl
@[simp] theorem interruptEntered_reservation (w : Candidate) (s : State) : (interruptEntered w s).reservation = none := rfl
@[simp] theorem interruptEntered_nmiPrev (w : Candidate) (s : State) : (interruptEntered w s).nmiPrev = s.nmiPrev := rfl
@[simp] theorem interruptEntered_nmiPending (w : Candidate) (s : State) : (interruptEntered w s).nmiPending = s.nmiPending := rfl
@[simp] theorem interruptEntered_sleeping (w : Candidate) (s : State) : (interruptEntered w s).sleeping = false := rfl
@[simp] theorem interruptEntered_rxEvt (w : Candidate) (s : State) : (interruptEntered w s).rxEvt = s.rxEvt := rfl
@[simp] theorem interruptEntered_txPulses (w : Candidate) (s : State) : (interruptEntered w s).txPulses = s.txPulses := rfl
@[simp] theorem interruptEntered_storeLog (w : Candidate) (s : State) : (interruptEntered w s).storeLog = s.storeLog := rfl
@[simp] theorem interruptEntered_errorReports (w : Candidate) (s : State) : (interruptEntered w s).errorReports = s.errorReports := rfl
@[simp] theorem interruptEntered_env (w : Candidate) (s : State) : (interruptEntered w s).env = s.env := rfl
@[simp] theorem interruptEntered_envRest (w : Candidate) (s : State) : (interruptEntered w s).envRest = s.envRest := rfl
@[simp] theorem interruptEntered_steps (w : Candidate) (s : State) : (interruptEntered w s).steps = s.steps := rfl

@[simp] theorem setMinhv_cfg (b : Bool) (s : State) : (setMinhv b s).cfg = s.cfg := rfl
@[simp] theorem setMinhv_regs (b : Bool) (s : State) : (setMinhv b s).regs = s.regs := rfl
@[simp] theorem setMinhv_pc (b : Bool) (s : State) : (setMinhv b s).pc = s.pc := rfl
@[simp] theorem setMinhv_priv (b : Bool) (s : State) : (setMinhv b s).priv = s.priv := rfl
@[simp] theorem setMinhv_csr (b : Bool) (s : State) : (setMinhv b s).csr = { s.csr with causeMinhv := b } := rfl
@[simp] theorem setMinhv_mcycle (b : Bool) (s : State) : (setMinhv b s).mcycle = s.mcycle := rfl
@[simp] theorem setMinhv_minstret (b : Bool) (s : State) : (setMinhv b s).minstret = s.minstret := rfl
@[simp] theorem setMinhv_timer (b : Bool) (s : State) : (setMinhv b s).timer = s.timer := rfl
@[simp] theorem setMinhv_eclic (b : Bool) (s : State) : (setMinhv b s).eclic = s.eclic := rfl
@[simp] theorem setMinhv_mem (b : Bool) (s : State) : (setMinhv b s).mem = s.mem := rfl
@[simp] theorem setMinhv_reservation (b : Bool) (s : State) : (setMinhv b s).reservation = s.reservation := rfl
@[simp] theorem setMinhv_nmiPrev (b : Bool) (s : State) : (setMinhv b s).nmiPrev = s.nmiPrev := rfl
@[simp] theorem setMinhv_nmiPending (b : Bool) (s : State) : (setMinhv b s).nmiPending = s.nmiPending := rfl
@[simp] theorem setMinhv_sleeping (b : Bool) (s : State) : (setMinhv b s).sleeping = s.sleeping := rfl
@[simp] theorem setMinhv_rxEvt (b : Bool) (s : State) : (setMinhv b s).rxEvt = s.rxEvt := rfl
@[simp] theorem setMinhv_txPulses (b : Bool) (s : State) : (setMinhv b s).txPulses = s.txPulses := rfl
@[simp] theorem setMinhv_storeLog (b : Bool) (s : State) : (setMinhv b s).storeLog = s.storeLog := rfl
@[simp] theorem setMinhv_errorReports (b : Bool) (s : State) : (setMinhv b s).errorReports = s.errorReports := rfl
@[simp] theorem setMinhv_env (b : Bool) (s : State) : (setMinhv b s).env = s.env := rfl
@[simp] theorem setMinhv_envRest (b : Bool) (s : State) : (setMinhv b s).envRest = s.envRest := rfl
@[simp] theorem setMinhv_steps (b : Bool) (s : State) : (setMinhv b s).steps = s.steps := rfl

@[simp] theorem returnFromTrap_cfg (s : State) : (returnFromTrap s).cfg = s.cfg := rfl
@[simp] theorem returnFromTrap_regs (s : State) : (returnFromTrap s).regs = s.regs := rfl
@[simp] theorem returnFromTrap_pc (s : State) : (returnFromTrap s).pc = s.csr.mepc := rfl
@[simp] theorem returnFromTrap_priv (s : State) : (returnFromTrap s).priv = privOfMpp s.cfg (Config.freeModeIsM s.steps 1) s.csr.mpp := rfl
@[simp] theorem returnFromTrap_csr (s : State) : (returnFromTrap s).csr = returnCsr s.cfg (Config.freeModeIsM s.steps 0) s.csr := rfl
@[simp] theorem returnFromTrap_mcycle (s : State) : (returnFromTrap s).mcycle = s.mcycle := rfl
@[simp] theorem returnFromTrap_minstret (s : State) : (returnFromTrap s).minstret = countRetired s := by
  cases h : s.csr.causeInterrupt <;>
    simp [returnFromTrap, countRetired, returnCsr, h, leaveInterrupt, popState, loadCause]
@[simp] theorem returnFromTrap_timer (s : State) : (returnFromTrap s).timer = s.timer := rfl
@[simp] theorem returnFromTrap_eclic (s : State) : (returnFromTrap s).eclic = s.eclic := rfl
@[simp] theorem returnFromTrap_mem (s : State) : (returnFromTrap s).mem = s.mem := rfl
@[simp] theorem returnFromTrap_reservation (s : State) : (returnFromTrap s).reservation = none := rfl
@[simp] theorem returnFromTrap_nmiPrev (s : State) : (returnFromTrap s).nmiPrev = s.nmiPrev := rfl
@[simp] theorem returnFromTrap_nmiPending (s : State) : (returnFromTrap s).nmiPending = s.nmiPending := rfl
@[simp] theorem returnFromTrap_sleeping (s : State) : (returnFromTrap s).sleeping = s.sleeping := rfl
@[simp] theorem returnFromTrap_rxEvt (s : State) : (returnFromTrap s).rxEvt = s.rxEvt := rfl
@[simp] theorem returnFromTrap_txPulses (s : State) : (returnFromTrap s).txPulses = s.txPulses := rfl
@[simp] theorem returnFromTrap_storeLog (s : State) : (returnFromTrap s).storeLog = s.storeLog := rfl
@[simp] theorem returnFromTrap_errorReports (s : State) : (returnFromTrap s).errorReports = s.errorReports := rfl
@[simp] theorem returnFromTrap_env (s : State) : (returnFromTrap s).env = s.env := rfl
@[simp] theorem returnFromTrap_envRest (s : State) : (returnFromTrap s).envRest = s.envRest := rfl
@[simp] theorem returnFromTrap_steps (s : State) : (returnFromTrap s).steps = s.steps := rfl

@[simp] theorem claimNext_cfg (w : Candidate) (s : State) : (claimNext w s).cfg = s.cfg := rfl
@[simp] theorem claimNext_regs (w : Candidate) (s : State) : (claimNext w s).regs = s.regs := rfl
@[simp] theorem claimNext_pc (w : Candidate) (s : State) : (claimNext w s).pc = s.pc := rfl
@[simp] theorem claimNext_priv (w : Candidate) (s : State) : (claimNext w s).priv = s.priv := rfl
@[simp] theorem claimNext_csr (w : Candidate) (s : State) : (claimNext w s).csr = { s.csr with causeExccode := BitVec.ofNat 12 w.id, mil := w.level } := rfl
@[simp] theorem claimNext_mcycle (w : Candidate) (s : State) : (claimNext w s).mcycle = s.mcycle := rfl
@[simp] theorem claimNext_minstret (w : Candidate) (s : State) : (claimNext w s).minstret = s.minstret := rfl
@[simp] theorem claimNext_timer (w : Candidate) (s : State) : (claimNext w s).timer = s.timer := rfl
@[simp] theorem claimNext_eclic (w : Candidate) (s : State) : (claimNext w s).eclic = claim s.eclic w.id := rfl
@[simp] theorem claimNext_mem (w : Candidate) (s : State) : (claimNext w s).mem = s.mem := rfl
@[simp] theorem claimNext_reservation (w : Candidate) (s : State) : (claimNext w s).reservation = s.reservation := rfl
@[simp] theorem claimNext_nmiPrev (w : Candidate) (s : State) : (claimNext w s).nmiPrev = s.nmiPrev := rfl
@[simp] theorem claimNext_nmiPending (w : Candidate) (s : State) : (claimNext w s).nmiPending = s.nmiPending := rfl
@[simp] theorem claimNext_sleeping (w : Candidate) (s : State) : (claimNext w s).sleeping = s.sleeping := rfl
@[simp] theorem claimNext_rxEvt (w : Candidate) (s : State) : (claimNext w s).rxEvt = s.rxEvt := rfl
@[simp] theorem claimNext_txPulses (w : Candidate) (s : State) : (claimNext w s).txPulses = s.txPulses := rfl
@[simp] theorem claimNext_storeLog (w : Candidate) (s : State) : (claimNext w s).storeLog = s.storeLog := rfl
@[simp] theorem claimNext_errorReports (w : Candidate) (s : State) : (claimNext w s).errorReports = s.errorReports := rfl
@[simp] theorem claimNext_env (w : Candidate) (s : State) : (claimNext w s).env = s.env := rfl
@[simp] theorem claimNext_envRest (w : Candidate) (s : State) : (claimNext w s).envRest = s.envRest := rfl
@[simp] theorem claimNext_steps (w : Candidate) (s : State) : (claimNext w s).steps = s.steps := rfl

@[simp] theorem mnxtiStatus_cfg (b : Bool) (u : BitVec 5) (s : State) : (mnxtiStatus b u s).cfg = s.cfg := by unfold mnxtiStatus; split <;> rfl
@[simp] theorem mnxtiStatus_regs (b : Bool) (u : BitVec 5) (s : State) : (mnxtiStatus b u s).regs = s.regs := by unfold mnxtiStatus; split <;> rfl
@[simp] theorem mnxtiStatus_pc (b : Bool) (u : BitVec 5) (s : State) : (mnxtiStatus b u s).pc = s.pc := by unfold mnxtiStatus; split <;> rfl
@[simp] theorem mnxtiStatus_priv (b : Bool) (u : BitVec 5) (s : State) : (mnxtiStatus b u s).priv = s.priv := by unfold mnxtiStatus; split <;> rfl
@[simp] theorem mnxtiStatus_mcycle (b : Bool) (u : BitVec 5) (s : State) : (mnxtiStatus b u s).mcycle = s.mcycle := by unfold mnxtiStatus; split <;> rfl
@[simp] theorem mnxtiStatus_minstret (b : Bool) (u : BitVec 5) (s : State) : (mnxtiStatus b u s).minstret = s.minstret := by unfold mnxtiStatus; split <;> rfl
@[simp] theorem mnxtiStatus_timer (b : Bool) (u : BitVec 5) (s : State) : (mnxtiStatus b u s).timer = s.timer := by unfold mnxtiStatus; split <;> rfl
@[simp] theorem mnxtiStatus_eclic (b : Bool) (u : BitVec 5) (s : State) : (mnxtiStatus b u s).eclic = s.eclic := by unfold mnxtiStatus; split <;> rfl
@[simp] theorem mnxtiStatus_mem (b : Bool) (u : BitVec 5) (s : State) : (mnxtiStatus b u s).mem = s.mem := by unfold mnxtiStatus; split <;> rfl
@[simp] theorem mnxtiStatus_reservation (b : Bool) (u : BitVec 5) (s : State) : (mnxtiStatus b u s).reservation = s.reservation := by unfold mnxtiStatus; split <;> rfl
@[simp] theorem mnxtiStatus_nmiPrev (b : Bool) (u : BitVec 5) (s : State) : (mnxtiStatus b u s).nmiPrev = s.nmiPrev := by unfold mnxtiStatus; split <;> rfl
@[simp] theorem mnxtiStatus_nmiPending (b : Bool) (u : BitVec 5) (s : State) : (mnxtiStatus b u s).nmiPending = s.nmiPending := by unfold mnxtiStatus; split <;> rfl
@[simp] theorem mnxtiStatus_sleeping (b : Bool) (u : BitVec 5) (s : State) : (mnxtiStatus b u s).sleeping = s.sleeping := by unfold mnxtiStatus; split <;> rfl
@[simp] theorem mnxtiStatus_rxEvt (b : Bool) (u : BitVec 5) (s : State) : (mnxtiStatus b u s).rxEvt = s.rxEvt := by unfold mnxtiStatus; split <;> rfl
@[simp] theorem mnxtiStatus_txPulses (b : Bool) (u : BitVec 5) (s : State) : (mnxtiStatus b u s).txPulses = s.txPulses := by unfold mnxtiStatus; split <;> rfl
@[simp] theorem mnxtiStatus_storeLog (b : Bool) (u : BitVec 5) (s : State) : (mnxtiStatus b u s).storeLog = s.storeLog := by unfold mnxtiStatus; split <;> rfl
@[simp] theorem mnxtiStatus_errorReports (b : Bool) (u : BitVec 5) (s : State) : (mnxtiStatus b u s).errorReports = s.errorReports := by unfold mnxtiStatus; split <;> rfl
@[simp] theorem mnxtiStatus_env (b : Bool) (u : BitVec 5) (s : State) : (mnxtiStatus b u s).env = s.env := by unfold mnxtiStatus; split <;> rfl
@[simp] theorem mnxtiStatus_envRest (b : Bool) (u : BitVec 5) (s : State) : (mnxtiStatus b u s).envRest = s.envRest := by unfold mnxtiStatus; split <;> rfl
@[simp] theorem mnxtiStatus_steps (b : Bool) (u : BitVec 5) (s : State) : (mnxtiStatus b u s).steps = s.steps := by unfold mnxtiStatus; split <;> rfl

@[simp] theorem sample_cfg (s : State) : (sample s).cfg = s.cfg := rfl
@[simp] theorem sample_regs (s : State) : (sample s).regs = s.regs := rfl
@[simp] theorem sample_pc (s : State) : (sample s).pc = s.pc := rfl
@[simp] theorem sample_priv (s : State) : (sample s).priv = s.priv := rfl
@[simp] theorem sample_csr (s : State) : (sample s).csr = s.csr := rfl
@[simp] theorem sample_mcycle (s : State) : (sample s).mcycle = if s.csr.inhibitCy then s.mcycle else s.mcycle + BitVec.ofNat 64 (nextSample s).cycles := rfl
@[simp] theorem sample_minstret (s : State) : (sample s).minstret = s.minstret := rfl
@[simp] theorem sample_timer (s : State) : (sample s).timer = s.timer.tick (nextSample s).ticks := rfl
@[simp] theorem sample_mem (s : State) : (sample s).mem = s.mem := rfl
@[simp] theorem sample_reservation (s : State) : (sample s).reservation = s.reservation := rfl
@[simp] theorem sample_nmiPrev (s : State) : (sample s).nmiPrev = (nextSample s).nmi := rfl
@[simp] theorem sample_nmiPending (s : State) : (sample s).nmiPending = (s.nmiPending || ((nextSample s).nmi && !s.nmiPrev)) := rfl
@[simp] theorem sample_sleeping (s : State) : (sample s).sleeping = s.sleeping := rfl
@[simp] theorem sample_rxEvt (s : State) : (sample s).rxEvt = (nextSample s).rxEvt := rfl
@[simp] theorem sample_txPulses (s : State) : (sample s).txPulses = s.txPulses := rfl
@[simp] theorem sample_storeLog (s : State) : (sample s).storeLog = s.storeLog := rfl
@[simp] theorem sample_env (s : State) : (sample s).env = laterSamples s := rfl
@[simp] theorem sample_envRest (s : State) : (sample s).envRest = s.envRest := rfl
@[simp] theorem sample_steps (s : State) : (sample s).steps = s.steps + 1 := rfl

@[simp] theorem resetEvent_cfg (s : State) : (resetEvent s).cfg = s.cfg := rfl
@[simp] theorem resetEvent_regs (s : State) : (resetEvent s).regs = (State.resetWith s.cfg).regs := rfl
@[simp] theorem resetEvent_pc (s : State) : (resetEvent s).pc = (State.resetWith s.cfg).pc := rfl
@[simp] theorem resetEvent_priv (s : State) : (resetEvent s).priv = (State.resetWith s.cfg).priv := rfl
@[simp] theorem resetEvent_csr (s : State) : (resetEvent s).csr = resetCsr s.csr := rfl
@[simp] theorem resetEvent_mcycle (s : State) : (resetEvent s).mcycle = (State.resetWith s.cfg).mcycle := rfl
@[simp] theorem resetEvent_minstret (s : State) : (resetEvent s).minstret = (State.resetWith s.cfg).minstret := rfl
@[simp] theorem resetEvent_timer (s : State) : (resetEvent s).timer = (State.resetWith s.cfg).timer := rfl
@[simp] theorem resetEvent_eclic (s : State) : (resetEvent s).eclic = (State.resetWith s.cfg).eclic := rfl
@[simp] theorem resetEvent_mem (s : State) : (resetEvent s).mem = s.mem := rfl
@[simp] theorem resetEvent_reservation (s : State) : (resetEvent s).reservation = (State.resetWith s.cfg).reservation := rfl
@[simp] theorem resetEvent_nmiPrev (s : State) : (resetEvent s).nmiPrev = (State.resetWith s.cfg).nmiPrev := rfl
@[simp] theorem resetEvent_nmiPending (s : State) : (resetEvent s).nmiPending = (State.resetWith s.cfg).nmiPending := rfl
@[simp] theorem resetEvent_sleeping (s : State) : (resetEvent s).sleeping = (State.resetWith s.cfg).sleeping := rfl
@[simp] theorem resetEvent_rxEvt (s : State) : (resetEvent s).rxEvt = (State.resetWith s.cfg).rxEvt := rfl
@[simp] theorem resetEvent_txPulses (s : State) : (resetEvent s).txPulses = s.txPulses := rfl
@[simp] theorem resetEvent_storeLog (s : State) : (resetEvent s).storeLog = s.storeLog := rfl
@[simp] theorem resetEvent_errorReports (s : State) : (resetEvent s).errorReports = (State.resetWith s.cfg).errorReports := rfl
@[simp] theorem resetEvent_env (s : State) : (resetEvent s).env = laterSamples s := rfl
@[simp] theorem resetEvent_envRest (s : State) : (resetEvent s).envRest = s.envRest := rfl
@[simp] theorem resetEvent_steps (s : State) : (resetEvent s).steps = s.steps + 1 := rfl

@[simp] theorem placeWord_cfg (w : Word) (s : State) : (placeWord w s).cfg = s.cfg := rfl
@[simp] theorem placeWord_regs (w : Word) (s : State) : (placeWord w s).regs = s.regs := rfl
@[simp] theorem placeWord_pc (w : Word) (s : State) : (placeWord w s).pc = s.pc := rfl
@[simp] theorem placeWord_priv (w : Word) (s : State) : (placeWord w s).priv = s.priv := rfl
@[simp] theorem placeWord_csr (w : Word) (s : State) : (placeWord w s).csr = s.csr := rfl
@[simp] theorem placeWord_mcycle (w : Word) (s : State) : (placeWord w s).mcycle = s.mcycle := rfl
@[simp] theorem placeWord_minstret (w : Word) (s : State) : (placeWord w s).minstret = s.minstret := rfl
@[simp] theorem placeWord_timer (w : Word) (s : State) : (placeWord w s).timer = s.timer := rfl
@[simp] theorem placeWord_eclic (w : Word) (s : State) : (placeWord w s).eclic = s.eclic := rfl
@[simp] theorem placeWord_reservation (w : Word) (s : State) : (placeWord w s).reservation = s.reservation := rfl
@[simp] theorem placeWord_nmiPrev (w : Word) (s : State) : (placeWord w s).nmiPrev = s.nmiPrev := rfl
@[simp] theorem placeWord_nmiPending (w : Word) (s : State) : (placeWord w s).nmiPending = s.nmiPending := rfl
@[simp] theorem placeWord_sleeping (w : Word) (s : State) : (placeWord w s).sleeping = s.sleeping := rfl
@[simp] theorem placeWord_rxEvt (w : Word) (s : State) : (placeWord w s).rxEvt = s.rxEvt := rfl
@[simp] theorem placeWord_txPulses (w : Word) (s : State) : (placeWord w s).txPulses = s.txPulses := rfl
@[simp] theorem placeWord_storeLog (w : Word) (s : State) : (placeWord w s).storeLog = [] := rfl
@[simp] theorem placeWord_errorReports (w : Word) (s : State) : (placeWord w s).errorReports = s.errorReports := rfl
@[simp] theorem placeWord_env (w : Word) (s : State) : (placeWord w s).env = s.env := rfl
@[simp] theorem placeWord_envRest (w : Word) (s : State) : (placeWord w s).envRest = s.envRest := rfl
@[simp] theorem placeWord_steps (w : Word) (s : State) : (placeWord w s).steps = s.steps := rfl

@[simp] theorem takeException_csr_mie (epc : Word) (c : BitVec 12) (v : Word) (s : State) :
    (takeException epc c v s).csr.mie = false := rfl
@[simp] theorem takeException_csr_mpie (epc : Word) (c : BitVec 12) (v : Word) (s : State) :
    (takeException epc c v s).csr.mpie = s.csr.mie := rfl
@[simp] theorem takeException_csr_mpp (epc : Word) (c : BitVec 12) (v : Word) (s : State) :
    (takeException epc c v s).csr.mpp = privCode s.priv := rfl
@[simp] theorem takeException_csr_xs (epc : Word) (c : BitVec 12) (v : Word) (s : State) :
    (takeException epc c v s).csr.xs = s.csr.xs := rfl
@[simp] theorem takeException_csr_causeInterrupt (epc : Word) (c : BitVec 12) (v : Word) (s : State) :
    (takeException epc c v s).csr.causeInterrupt = false := rfl
@[simp] theorem takeException_csr_causeMinhv (epc : Word) (c : BitVec 12) (v : Word) (s : State) :
    (takeException epc c v s).csr.causeMinhv = s.csr.causeMinhv := rfl
@[simp] theorem takeException_csr_causeMpil (epc : Word) (c : BitVec 12) (v : Word) (s : State) :
    (takeException epc c v s).csr.causeMpil = s.csr.causeMpil := rfl
@[simp] theorem takeException_csr_causeExccode (epc : Word) (c : BitVec 12) (v : Word) (s : State) :
    (takeException epc c v s).csr.causeExccode = c := rfl
@[simp] theorem takeException_csr_mtvec (epc : Word) (c : BitVec 12) (v : Word) (s : State) :
    (takeException epc c v s).csr.mtvec = s.csr.mtvec := rfl
@[simp] theorem takeException_csr_mtvt (epc : Word) (c : BitVec 12) (v : Word) (s : State) :
    (takeException epc c v s).csr.mtvt = s.csr.mtvt := rfl
@[simp] theorem takeException_csr_mtvt2 (epc : Word) (c : BitVec 12) (v : Word) (s : State) :
    (takeException epc c v s).csr.mtvt2 = s.csr.mtvt2 := rfl
@[simp] theorem takeException_csr_mscratch (epc : Word) (c : BitVec 12) (v : Word) (s : State) :
    (takeException epc c v s).csr.mscratch = s.csr.mscratch := rfl
@[simp] theorem takeException_csr_mepc (epc : Word) (c : BitVec 12) (v : Word) (s : State) :
    (takeException epc c v s).csr.mepc = epc := rfl
@[simp] theorem takeException_csr_mtval (epc : Word) (c : BitVec 12) (v : Word) (s : State) :
    (takeException epc c v s).csr.mtval = v := rfl
@[simp] theorem takeException_csr_mil (epc : Word) (c : BitVec 12) (v : Word) (s : State) :
    (takeException epc c v s).csr.mil = s.csr.mil := rfl
@[simp] theorem takeException_csr_uil (epc : Word) (c : BitVec 12) (v : Word) (s : State) :
    (takeException epc c v s).csr.uil = s.csr.uil := rfl
@[simp] theorem takeException_csr_typ (epc : Word) (c : BitVec 12) (v : Word) (s : State) :
    (takeException epc c v s).csr.typ = .exception := rfl
@[simp] theorem takeException_csr_ptyp (epc : Word) (c : BitVec 12) (v : Word) (s : State) :
    (takeException epc c v s).csr.ptyp = s.csr.typ := rfl
@[simp] theorem takeException_csr_nmiCauseFff (epc : Word) (c : BitVec 12) (v : Word) (s : State) :
    (takeException epc c v s).csr.nmiCauseFff = s.csr.nmiCauseFff := rfl
@[simp] theorem takeException_csr_save1 (epc : Word) (c : BitVec 12) (v : Word) (s : State) :
    (takeException epc c v s).csr.save1 = { epc := s.csr.mepc, cause := mcauseWord s.csr, mpie := s.csr.mpie, mpp := s.csr.mpp, ptyp := s.csr.ptyp } := rfl
@[simp] theorem takeException_csr_save2 (epc : Word) (c : BitVec 12) (v : Word) (s : State) :
    (takeException epc c v s).csr.save2 = s.csr.save1 := rfl
@[simp] theorem takeException_csr_counterenCy (epc : Word) (c : BitVec 12) (v : Word) (s : State) :
    (takeException epc c v s).csr.counterenCy = s.csr.counterenCy := rfl
@[simp] theorem takeException_csr_counterenTm (epc : Word) (c : BitVec 12) (v : Word) (s : State) :
    (takeException epc c v s).csr.counterenTm = s.csr.counterenTm := rfl
@[simp] theorem takeException_csr_counterenIr (epc : Word) (c : BitVec 12) (v : Word) (s : State) :
    (takeException epc c v s).csr.counterenIr = s.csr.counterenIr := rfl
@[simp] theorem takeException_csr_inhibitCy (epc : Word) (c : BitVec 12) (v : Word) (s : State) :
    (takeException epc c v s).csr.inhibitCy = s.csr.inhibitCy := rfl
@[simp] theorem takeException_csr_inhibitIr (epc : Word) (c : BitVec 12) (v : Word) (s : State) :
    (takeException epc c v s).csr.inhibitIr = s.csr.inhibitIr := rfl
@[simp] theorem takeException_csr_wfe (epc : Word) (c : BitVec 12) (v : Word) (s : State) :
    (takeException epc c v s).csr.wfe = s.csr.wfe := rfl
@[simp] theorem takeException_csr_sleepvalue (epc : Word) (c : BitVec 12) (v : Word) (s : State) :
    (takeException epc c v s).csr.sleepvalue = s.csr.sleepvalue := rfl

@[simp] theorem enterNmi_csr_mie (s : State) :
    (enterNmi s).csr.mie = false := rfl
@[simp] theorem enterNmi_csr_mpie (s : State) :
    (enterNmi s).csr.mpie = s.csr.mie := rfl
@[simp] theorem enterNmi_csr_mpp (s : State) :
    (enterNmi s).csr.mpp = privCode s.priv := rfl
@[simp] theorem enterNmi_csr_xs (s : State) :
    (enterNmi s).csr.xs = s.csr.xs := rfl
@[simp] theorem enterNmi_csr_causeInterrupt (s : State) :
    (enterNmi s).csr.causeInterrupt = false := rfl
@[simp] theorem enterNmi_csr_causeMinhv (s : State) :
    (enterNmi s).csr.causeMinhv = s.csr.causeMinhv := rfl
@[simp] theorem enterNmi_csr_causeMpil (s : State) :
    (enterNmi s).csr.causeMpil = s.csr.causeMpil := rfl
@[simp] theorem enterNmi_csr_causeExccode (s : State) :
    (enterNmi s).csr.causeExccode = if s.csr.nmiCauseFff then 0xFFF#12 else 0x001#12 := rfl
@[simp] theorem enterNmi_csr_mtvec (s : State) :
    (enterNmi s).csr.mtvec = s.csr.mtvec := rfl
@[simp] theorem enterNmi_csr_mtvt (s : State) :
    (enterNmi s).csr.mtvt = s.csr.mtvt := rfl
@[simp] theorem enterNmi_csr_mtvt2 (s : State) :
    (enterNmi s).csr.mtvt2 = s.csr.mtvt2 := rfl
@[simp] theorem enterNmi_csr_mscratch (s : State) :
    (enterNmi s).csr.mscratch = s.csr.mscratch := rfl
@[simp] theorem enterNmi_csr_mepc (s : State) :
    (enterNmi s).csr.mepc = s.pc := rfl
@[simp] theorem enterNmi_csr_mtval (s : State) :
    (enterNmi s).csr.mtval = s.csr.mtval := rfl
@[simp] theorem enterNmi_csr_mil (s : State) :
    (enterNmi s).csr.mil = s.csr.mil := rfl
@[simp] theorem enterNmi_csr_uil (s : State) :
    (enterNmi s).csr.uil = s.csr.uil := rfl
@[simp] theorem enterNmi_csr_typ (s : State) :
    (enterNmi s).csr.typ = .nmi := rfl
@[simp] theorem enterNmi_csr_ptyp (s : State) :
    (enterNmi s).csr.ptyp = s.csr.typ := rfl
@[simp] theorem enterNmi_csr_nmiCauseFff (s : State) :
    (enterNmi s).csr.nmiCauseFff = s.csr.nmiCauseFff := rfl
@[simp] theorem enterNmi_csr_save1 (s : State) :
    (enterNmi s).csr.save1 = { epc := s.csr.mepc, cause := mcauseWord s.csr, mpie := s.csr.mpie, mpp := s.csr.mpp, ptyp := s.csr.ptyp } := rfl
@[simp] theorem enterNmi_csr_save2 (s : State) :
    (enterNmi s).csr.save2 = s.csr.save1 := rfl
@[simp] theorem enterNmi_csr_counterenCy (s : State) :
    (enterNmi s).csr.counterenCy = s.csr.counterenCy := rfl
@[simp] theorem enterNmi_csr_counterenTm (s : State) :
    (enterNmi s).csr.counterenTm = s.csr.counterenTm := rfl
@[simp] theorem enterNmi_csr_counterenIr (s : State) :
    (enterNmi s).csr.counterenIr = s.csr.counterenIr := rfl
@[simp] theorem enterNmi_csr_inhibitCy (s : State) :
    (enterNmi s).csr.inhibitCy = s.csr.inhibitCy := rfl
@[simp] theorem enterNmi_csr_inhibitIr (s : State) :
    (enterNmi s).csr.inhibitIr = s.csr.inhibitIr := rfl
@[simp] theorem enterNmi_csr_wfe (s : State) :
    (enterNmi s).csr.wfe = s.csr.wfe := rfl
@[simp] theorem enterNmi_csr_sleepvalue (s : State) :
    (enterNmi s).csr.sleepvalue = s.csr.sleepvalue := rfl

@[simp] theorem interruptEntered_csr_mie (w : Candidate) (s : State) :
    (interruptEntered w s).csr.mie = false := rfl
@[simp] theorem interruptEntered_csr_mpie (w : Candidate) (s : State) :
    (interruptEntered w s).csr.mpie = s.csr.mie := rfl
@[simp] theorem interruptEntered_csr_mpp (w : Candidate) (s : State) :
    (interruptEntered w s).csr.mpp = privCode s.priv := rfl
@[simp] theorem interruptEntered_csr_xs (w : Candidate) (s : State) :
    (interruptEntered w s).csr.xs = s.csr.xs := rfl
@[simp] theorem interruptEntered_csr_causeInterrupt (w : Candidate) (s : State) :
    (interruptEntered w s).csr.causeInterrupt = true := rfl
@[simp] theorem interruptEntered_csr_causeMinhv (w : Candidate) (s : State) :
    (interruptEntered w s).csr.causeMinhv = s.csr.causeMinhv := rfl
@[simp] theorem interruptEntered_csr_causeMpil (w : Candidate) (s : State) :
    (interruptEntered w s).csr.causeMpil = s.csr.mil := rfl
@[simp] theorem interruptEntered_csr_causeExccode (w : Candidate) (s : State) :
    (interruptEntered w s).csr.causeExccode = BitVec.ofNat 12 w.id := rfl
@[simp] theorem interruptEntered_csr_mtvec (w : Candidate) (s : State) :
    (interruptEntered w s).csr.mtvec = s.csr.mtvec := rfl
@[simp] theorem interruptEntered_csr_mtvt (w : Candidate) (s : State) :
    (interruptEntered w s).csr.mtvt = s.csr.mtvt := rfl
@[simp] theorem interruptEntered_csr_mtvt2 (w : Candidate) (s : State) :
    (interruptEntered w s).csr.mtvt2 = s.csr.mtvt2 := rfl
@[simp] theorem interruptEntered_csr_mscratch (w : Candidate) (s : State) :
    (interruptEntered w s).csr.mscratch = s.csr.mscratch := rfl
@[simp] theorem interruptEntered_csr_mepc (w : Candidate) (s : State) :
    (interruptEntered w s).csr.mepc = s.pc := rfl
@[simp] theorem interruptEntered_csr_mtval (w : Candidate) (s : State) :
    (interruptEntered w s).csr.mtval = s.csr.mtval := rfl
@[simp] theorem interruptEntered_csr_mil (w : Candidate) (s : State) :
    (interruptEntered w s).csr.mil = w.level := rfl
@[simp] theorem interruptEntered_csr_uil (w : Candidate) (s : State) :
    (interruptEntered w s).csr.uil = s.csr.uil := rfl
@[simp] theorem interruptEntered_csr_typ (w : Candidate) (s : State) :
    (interruptEntered w s).csr.typ = .interrupt := rfl
@[simp] theorem interruptEntered_csr_ptyp (w : Candidate) (s : State) :
    (interruptEntered w s).csr.ptyp = s.csr.typ := rfl
@[simp] theorem interruptEntered_csr_nmiCauseFff (w : Candidate) (s : State) :
    (interruptEntered w s).csr.nmiCauseFff = s.csr.nmiCauseFff := rfl
@[simp] theorem interruptEntered_csr_save1 (w : Candidate) (s : State) :
    (interruptEntered w s).csr.save1 = s.csr.save1 := rfl
@[simp] theorem interruptEntered_csr_save2 (w : Candidate) (s : State) :
    (interruptEntered w s).csr.save2 = s.csr.save2 := rfl
@[simp] theorem interruptEntered_csr_counterenCy (w : Candidate) (s : State) :
    (interruptEntered w s).csr.counterenCy = s.csr.counterenCy := rfl
@[simp] theorem interruptEntered_csr_counterenTm (w : Candidate) (s : State) :
    (interruptEntered w s).csr.counterenTm = s.csr.counterenTm := rfl
@[simp] theorem interruptEntered_csr_counterenIr (w : Candidate) (s : State) :
    (interruptEntered w s).csr.counterenIr = s.csr.counterenIr := rfl
@[simp] theorem interruptEntered_csr_inhibitCy (w : Candidate) (s : State) :
    (interruptEntered w s).csr.inhibitCy = s.csr.inhibitCy := rfl
@[simp] theorem interruptEntered_csr_inhibitIr (w : Candidate) (s : State) :
    (interruptEntered w s).csr.inhibitIr = s.csr.inhibitIr := rfl
@[simp] theorem interruptEntered_csr_wfe (w : Candidate) (s : State) :
    (interruptEntered w s).csr.wfe = s.csr.wfe := rfl
@[simp] theorem interruptEntered_csr_sleepvalue (w : Candidate) (s : State) :
    (interruptEntered w s).csr.sleepvalue = s.csr.sleepvalue := rfl

@[simp] theorem writeMstatus_mie (c : Config) (m : Bool) (r : CsrFile) (v : Word) :
    (writeMstatus c m r v).mie = v.getLsbD 3 := rfl
@[simp] theorem writeMstatus_mpie (c : Config) (m : Bool) (r : CsrFile) (v : Word) :
    (writeMstatus c m r v).mpie = v.getLsbD 7 := rfl
@[simp] theorem writeMstatus_mpp (c : Config) (m : Bool) (r : CsrFile) (v : Word) :
    (writeMstatus c m r v).mpp = legalMpp c m (v.extractLsb' 11 2) := rfl
@[simp] theorem writeMstatus_xs (c : Config) (m : Bool) (r : CsrFile) (v : Word) :
    (writeMstatus c m r v).xs = v.extractLsb' 15 2 := rfl
@[simp] theorem writeMstatus_causeInterrupt (c : Config) (m : Bool) (r : CsrFile) (v : Word) :
    (writeMstatus c m r v).causeInterrupt = r.causeInterrupt := rfl
@[simp] theorem writeMstatus_causeMinhv (c : Config) (m : Bool) (r : CsrFile) (v : Word) :
    (writeMstatus c m r v).causeMinhv = r.causeMinhv := rfl
@[simp] theorem writeMstatus_causeMpil (c : Config) (m : Bool) (r : CsrFile) (v : Word) :
    (writeMstatus c m r v).causeMpil = r.causeMpil := rfl
@[simp] theorem writeMstatus_causeExccode (c : Config) (m : Bool) (r : CsrFile) (v : Word) :
    (writeMstatus c m r v).causeExccode = r.causeExccode := rfl
@[simp] theorem writeMstatus_mtvec (c : Config) (m : Bool) (r : CsrFile) (v : Word) :
    (writeMstatus c m r v).mtvec = r.mtvec := rfl
@[simp] theorem writeMstatus_mtvt (c : Config) (m : Bool) (r : CsrFile) (v : Word) :
    (writeMstatus c m r v).mtvt = r.mtvt := rfl
@[simp] theorem writeMstatus_mtvt2 (c : Config) (m : Bool) (r : CsrFile) (v : Word) :
    (writeMstatus c m r v).mtvt2 = r.mtvt2 := rfl
@[simp] theorem writeMstatus_mscratch (c : Config) (m : Bool) (r : CsrFile) (v : Word) :
    (writeMstatus c m r v).mscratch = r.mscratch := rfl
@[simp] theorem writeMstatus_mepc (c : Config) (m : Bool) (r : CsrFile) (v : Word) :
    (writeMstatus c m r v).mepc = r.mepc := rfl
@[simp] theorem writeMstatus_mtval (c : Config) (m : Bool) (r : CsrFile) (v : Word) :
    (writeMstatus c m r v).mtval = r.mtval := rfl
@[simp] theorem writeMstatus_mil (c : Config) (m : Bool) (r : CsrFile) (v : Word) :
    (writeMstatus c m r v).mil = r.mil := rfl
@[simp] theorem writeMstatus_uil (c : Config) (m : Bool) (r : CsrFile) (v : Word) :
    (writeMstatus c m r v).uil = r.uil := rfl
@[simp] theorem writeMstatus_typ (c : Config) (m : Bool) (r : CsrFile) (v : Word) :
    (writeMstatus c m r v).typ = r.typ := rfl
@[simp] theorem writeMstatus_ptyp (c : Config) (m : Bool) (r : CsrFile) (v : Word) :
    (writeMstatus c m r v).ptyp = r.ptyp := rfl
@[simp] theorem writeMstatus_nmiCauseFff (c : Config) (m : Bool) (r : CsrFile) (v : Word) :
    (writeMstatus c m r v).nmiCauseFff = r.nmiCauseFff := rfl
@[simp] theorem writeMstatus_save1 (c : Config) (m : Bool) (r : CsrFile) (v : Word) :
    (writeMstatus c m r v).save1 = r.save1 := rfl
@[simp] theorem writeMstatus_save2 (c : Config) (m : Bool) (r : CsrFile) (v : Word) :
    (writeMstatus c m r v).save2 = r.save2 := rfl
@[simp] theorem writeMstatus_counterenCy (c : Config) (m : Bool) (r : CsrFile) (v : Word) :
    (writeMstatus c m r v).counterenCy = r.counterenCy := rfl
@[simp] theorem writeMstatus_counterenTm (c : Config) (m : Bool) (r : CsrFile) (v : Word) :
    (writeMstatus c m r v).counterenTm = r.counterenTm := rfl
@[simp] theorem writeMstatus_counterenIr (c : Config) (m : Bool) (r : CsrFile) (v : Word) :
    (writeMstatus c m r v).counterenIr = r.counterenIr := rfl
@[simp] theorem writeMstatus_inhibitCy (c : Config) (m : Bool) (r : CsrFile) (v : Word) :
    (writeMstatus c m r v).inhibitCy = r.inhibitCy := rfl
@[simp] theorem writeMstatus_inhibitIr (c : Config) (m : Bool) (r : CsrFile) (v : Word) :
    (writeMstatus c m r v).inhibitIr = r.inhibitIr := rfl
@[simp] theorem writeMstatus_wfe (c : Config) (m : Bool) (r : CsrFile) (v : Word) :
    (writeMstatus c m r v).wfe = r.wfe := rfl
@[simp] theorem writeMstatus_sleepvalue (c : Config) (m : Bool) (r : CsrFile) (v : Word) :
    (writeMstatus c m r v).sleepvalue = r.sleepvalue := rfl

@[simp] theorem writeMcause_mie (c : Config) (m : Bool) (r : CsrFile) (v : Word) :
    (writeMcause c m r v).mie = r.mie := rfl
@[simp] theorem writeMcause_mpie (c : Config) (m : Bool) (r : CsrFile) (v : Word) :
    (writeMcause c m r v).mpie = v.getLsbD 27 := rfl
@[simp] theorem writeMcause_mpp (c : Config) (m : Bool) (r : CsrFile) (v : Word) :
    (writeMcause c m r v).mpp = legalMpp c m (v.extractLsb' 28 2) := rfl
@[simp] theorem writeMcause_xs (c : Config) (m : Bool) (r : CsrFile) (v : Word) :
    (writeMcause c m r v).xs = r.xs := rfl
@[simp] theorem writeMcause_causeInterrupt (c : Config) (m : Bool) (r : CsrFile) (v : Word) :
    (writeMcause c m r v).causeInterrupt = v.getLsbD 31 := rfl
@[simp] theorem writeMcause_causeMinhv (c : Config) (m : Bool) (r : CsrFile) (v : Word) :
    (writeMcause c m r v).causeMinhv = v.getLsbD 30 := rfl
@[simp] theorem writeMcause_causeMpil (c : Config) (m : Bool) (r : CsrFile) (v : Word) :
    (writeMcause c m r v).causeMpil = v.extractLsb' 16 8 := rfl
@[simp] theorem writeMcause_causeExccode (c : Config) (m : Bool) (r : CsrFile) (v : Word) :
    (writeMcause c m r v).causeExccode = v.extractLsb' 0 12 := rfl
@[simp] theorem writeMcause_mtvec (c : Config) (m : Bool) (r : CsrFile) (v : Word) :
    (writeMcause c m r v).mtvec = r.mtvec := rfl
@[simp] theorem writeMcause_mtvt (c : Config) (m : Bool) (r : CsrFile) (v : Word) :
    (writeMcause c m r v).mtvt = r.mtvt := rfl
@[simp] theorem writeMcause_mtvt2 (c : Config) (m : Bool) (r : CsrFile) (v : Word) :
    (writeMcause c m r v).mtvt2 = r.mtvt2 := rfl
@[simp] theorem writeMcause_mscratch (c : Config) (m : Bool) (r : CsrFile) (v : Word) :
    (writeMcause c m r v).mscratch = r.mscratch := rfl
@[simp] theorem writeMcause_mepc (c : Config) (m : Bool) (r : CsrFile) (v : Word) :
    (writeMcause c m r v).mepc = r.mepc := rfl
@[simp] theorem writeMcause_mtval (c : Config) (m : Bool) (r : CsrFile) (v : Word) :
    (writeMcause c m r v).mtval = r.mtval := rfl
@[simp] theorem writeMcause_mil (c : Config) (m : Bool) (r : CsrFile) (v : Word) :
    (writeMcause c m r v).mil = r.mil := rfl
@[simp] theorem writeMcause_uil (c : Config) (m : Bool) (r : CsrFile) (v : Word) :
    (writeMcause c m r v).uil = r.uil := rfl
@[simp] theorem writeMcause_typ (c : Config) (m : Bool) (r : CsrFile) (v : Word) :
    (writeMcause c m r v).typ = r.typ := rfl
@[simp] theorem writeMcause_ptyp (c : Config) (m : Bool) (r : CsrFile) (v : Word) :
    (writeMcause c m r v).ptyp = r.ptyp := rfl
@[simp] theorem writeMcause_nmiCauseFff (c : Config) (m : Bool) (r : CsrFile) (v : Word) :
    (writeMcause c m r v).nmiCauseFff = r.nmiCauseFff := rfl
@[simp] theorem writeMcause_save1 (c : Config) (m : Bool) (r : CsrFile) (v : Word) :
    (writeMcause c m r v).save1 = r.save1 := rfl
@[simp] theorem writeMcause_save2 (c : Config) (m : Bool) (r : CsrFile) (v : Word) :
    (writeMcause c m r v).save2 = r.save2 := rfl
@[simp] theorem writeMcause_counterenCy (c : Config) (m : Bool) (r : CsrFile) (v : Word) :
    (writeMcause c m r v).counterenCy = r.counterenCy := rfl
@[simp] theorem writeMcause_counterenTm (c : Config) (m : Bool) (r : CsrFile) (v : Word) :
    (writeMcause c m r v).counterenTm = r.counterenTm := rfl
@[simp] theorem writeMcause_counterenIr (c : Config) (m : Bool) (r : CsrFile) (v : Word) :
    (writeMcause c m r v).counterenIr = r.counterenIr := rfl
@[simp] theorem writeMcause_inhibitCy (c : Config) (m : Bool) (r : CsrFile) (v : Word) :
    (writeMcause c m r v).inhibitCy = r.inhibitCy := rfl
@[simp] theorem writeMcause_inhibitIr (c : Config) (m : Bool) (r : CsrFile) (v : Word) :
    (writeMcause c m r v).inhibitIr = r.inhibitIr := rfl
@[simp] theorem writeMcause_wfe (c : Config) (m : Bool) (r : CsrFile) (v : Word) :
    (writeMcause c m r v).wfe = r.wfe := rfl
@[simp] theorem writeMcause_sleepvalue (c : Config) (m : Bool) (r : CsrFile) (v : Word) :
    (writeMcause c m r v).sleepvalue = r.sleepvalue := rfl

end Sys2Proof.Machine
end

