-- ==== Sys2Proof/Laws/Ops.lean ====
section
/-! SUPPORT. The registers, and one lemma for each shared operation that says what it can do. -/

namespace Sys2Proof.Machine

/-! ## Registers -/

theorem getReg_congr {s t : State} (h : t.regs = s.regs) (r : Reg) : getReg t r = getReg s r := by
  simp [getReg, h]

@[simp] theorem getReg_x0 (s : State) : getReg s 0#5 = 0#32 := by simp [getReg]

theorem getReg_setReg (s : State) (rd r : Reg) (v : Word) :
    getReg (setReg s rd v) r = if r = rd then (if rd = 0#5 then 0#32 else v) else getReg s r := by
  by_cases hr : r = 0#5
  · subst hr; by_cases hd : (0#5 : Reg) = rd <;> simp [getReg, hd]
  · by_cases hd : rd = 0#5
    · have : ¬r = rd := fun e => hr (e.trans hd)
      simp [setReg, hd, hr]
    · by_cases he : r = rd
      · subst he; simp [getReg, setReg, hd]
      · have hne : rd.toNat ≠ r.toNat := fun e => he (BitVec.eq_of_toNat_eq e.symm)
        simp only [getReg, setReg, hr, hd, he, if_false]
        exact Vector.getElem_set_ne rd.isLt r.isLt hne

/-- After x[rd] <- v in a state whose registers are those of `s`: rd holds v, or 0 if it is x0. -/
theorem wrote_of_regs {s t : State} {rd : Reg} {v : Word} (h : t.regs = (setReg s rd v).regs) : Wrote rd v t := by
  unfold Wrote
  rw [getReg_congr h, getReg_setReg, if_pos rfl]

/-- And every other register holds what it held. -/
theorem sameRegsBut_of_regs {s t : State} {rd : Reg} {v : Word} (h : t.regs = (setReg s rd v).regs) :
    SameRegsBut rd s t := by
  intro r hr
  rw [getReg_congr h, getReg_setReg, if_neg hr]

theorem sameRegs_of_regs {s t : State} (h : t.regs = s.regs) : SameRegs s t := fun r => getReg_congr h r

/-! ## Computing instructions -/

theorem retireTo_setReg_changesOnly (target : Word) (rd : Reg) (v : Word) (s : State) :
    ChangesOnly rd v target s (retireTo target (setReg s rd v)) := by
  refine ⟨wrote_of_regs (s := s) rfl, sameRegsBut_of_regs (v := v) rfl, rfl, ?_, fun b => by simp, ?_, ?_, by simp,
    by simp⟩
  · simp [countRetired]
  · simp [SameControl, SameOutside]
  · simp [SameDevices]

/-- `writeResult` gives a next state, in which only rd, the pc and the count of instructions have changed. -/
theorem writeResult_next (len : Word) (rd : Reg) (v : Word) (s : State) :
    ∃ t, writeResult len rd v s = .next t ∧ ComputesOnly len rd v s t := by
  refine ⟨_, rfl, ?_⟩
  have h := retireTo_setReg_changesOnly (s.pc + len) rd v s
  simpa [retire, ComputesOnly] using h

/-- `jumpAndLink` gives a next state at the target, with the link in rd. -/
theorem jumpAndLink_next (len : Word) (rd : Reg) (target : Word) (s : State) :
    ∃ t, jumpAndLink len rd target s = .next t ∧ ChangesOnly rd (s.pc + len) target s t :=
  ⟨_, rfl, retireTo_setReg_changesOnly target rd (s.pc + len) s⟩

/-- Going on at an address changes the pc and the count of instructions only. -/
theorem retireTo_changesOnly (target : Word) (s : State) : ChangesOnly 0#5 0#32 target s (retireTo target s) := by
  have h := retireTo_setReg_changesOnly target 0#5 0#32 s
  simpa [setReg] using h

/-- `branchIf` gives a next state at the target of a taken branch, else after the branch. -/
theorem branchIf_next (len : Word) (taken : Bool) (offset : Word) (s : State) :
    ∃ t, branchIf len taken offset s = .next t
      ∧ ChangesOnly 0#5 0#32 (if taken then s.pc + offset else s.pc + len) s t :=
  ⟨_, rfl, retireTo_changesOnly _ s⟩

/-! ## Data accesses -/

theorem aligned_iff (a : Word) (n : Nat) : aligned a n = true ↔ a.toNat % n = 0 := by simp [aligned]

/-- An aligned access of 1, 2 or 4 bytes ends inside the address space. -/
theorem aligned_bound (a : Word) (n : Nat) (hn : n = 1 ∨ n = 2 ∨ n = 4) (h : aligned a n = true) :
    a.toNat + n ≤ 2 ^ 32 := by
  rw [aligned_iff] at h
  have := a.isLt
  rcases hn with rfl | rfl | rfl <;> omega

/-- A read of mapped memory gives its bytes. -/
theorem readData_mapped (s : State) (a : Word) (n : Nat) (h : AllMapped s.cfg a n) :
    readData s a n = (Memory.readLE s.mem a.toNat n, s) := by
  have hr : readable s.cfg a.toNat n = true := (readable_iff _ _ _).2 h.2
  simp [readData, readExtended, dataAnswer, h.1, hr]

/-- What a read can do: give the value that answers it, or report an error and give a free value. -/
theorem readExtended_cases (ext : Word → Word) (s : State) (a : Word) (n : Nat) :
    (∃ v, dataAnswer s a n = some v ∧ readExtended ext s a n = (ext v, s)) ∨
    (dataAnswer s a n = none ∧ readExtended ext s a n = (Config.freeLoad s.steps, reportError s)) := by
  cases h : dataAnswer s a n <;> simp [readExtended, h]

theorem readExtended_mapped (ext : Word → Word) (s : State) (a : Word) (n : Nat) (h : AllMapped s.cfg a n) :
    readExtended ext s a n = (ext (Memory.readLE s.mem a.toNat n), s) := by
  have hr : readable s.cfg a.toNat n = true := (readable_iff _ _ _).2 h.2
  simp [readExtended, dataAnswer, h.1, hr]

theorem sizeRefused_memory {c : Config} {a : Word} (h : placeOf c a = .memory) (n : Nat) :
    sizeRefused c a n = false := by simp [sizeRefused, h]

theorem isDevice_memory {c : Config} {a : Word} (h : placeOf c a = .memory) : isDevice c a = false := by
  simp [isDevice, h]

/-- What `loadOp` can do. -/
theorem loadOp_cases (len : Word) (n : Nat) (ext : Word → Word) (rd : Reg) (a : Word) (s : State) :
    (aligned a n = false ∧ loadOp len n ext rd a s = raise codeLoadMisaligned a s) ∨
    (aligned a n = true ∧ sizeRefused s.cfg a n = true ∧ loadOp len n ext rd a s = .refused .timerAccessSize) ∨
    (aligned a n = true ∧ sizeRefused s.cfg a n = false ∧ loadOp len n ext rd a s
      = .next (retire len (setReg (readExtended ext s a n).2 rd (readExtended ext s a n).1))) := by
  cases h1 : aligned a n <;> cases h2 : sizeRefused s.cfg a n <;> simp [loadOp, h1, h2]

/-- A load from mapped memory. -/
theorem loadOp_mapped (len : Word) (n : Nat) (ext : Word → Word) (rd : Reg) (a : Word) (s : State)
    (ha : aligned a n = true) (h : AllMapped s.cfg a n) :
    ∃ t, loadOp len n ext rd a s = .next t ∧ ComputesOnly len rd (ext (Memory.readLE s.mem a.toNat n)) s t := by
  rw [loadOp]
  simp only [ha, sizeRefused_memory h.1, readExtended_mapped ext s a n h]
  exact writeResult_next len rd _ s

/-- What `storeOp` can do. -/
theorem storeOp_cases (len : Word) (n : Nat) (v a : Word) (s : State) :
    (aligned a n = false ∧ storeOp len n v a s = raise codeStoreMisaligned a s) ∨
    (aligned a n = true ∧ sizeRefused s.cfg a n = true ∧ storeOp len n v a s = .refused .timerAccessSize) ∨
    (aligned a n = true ∧ sizeRefused s.cfg a n = false
      ∧ storeOp len n v a s = .next (retire len (writeData a n v s))) := by
  cases h1 : aligned a n <;> cases h2 : sizeRefused s.cfg a n <;> simp [storeOp, h1, h2]

/-- What a store to memory can change: memory, the store log, and the count of errors. -/
theorem storeMemory_eq (a : Word) (n : Nat) (v : Word) (s : State) :
    ∃ p bytes e, bytes.length = n ∧ storeMemory a n v s
      = { s with
          mem := Memory.writeWhere p s.mem a.toNat bytes
          storeLog := Memory.cellsAt s.mem a.toNat n :: s.storeLog
          errorReports := s.errorReports + e } := by
  unfold storeMemory
  split
  · exact ⟨isRam s.cfg, wordBytes v n, 0, by simp, by simp [storeBytes]⟩
  · exact ⟨isMapped s.cfg, freeBytes s.steps 0 n, 1, by simp, by simp [storeBytes, reportError]⟩

theorem storeMemory_ram (a : Word) (n : Nat) (v : Word) (s : State) (h : AllRam s.cfg a n) :
    storeMemory a n v s = storeBytes (isRam s.cfg) a (wordBytes v n) s := by
  have hw : writable s.cfg a.toNat n = true :=
    (writable_iff _ _ _).2 fun k hk => (isRam_mapped_writable _ _ (h.2 k hk)).2
  simp [storeMemory, hw]

/-- The bytes of a store to RAM, in a machine whose memory is in canonical form. -/
theorem storeBytes_holds (a : Word) (n : Nat) (v : Word) (s : State) (hw : s.mem.wf = true)
    (hb : a.toNat + n ≤ 2 ^ 32) (h : AllRam s.cfg a n) :
    HoldsBytes a n v (storeBytes (isRam s.cfg) a (wordBytes v n) s) := by
  intro k hk
  have hk' : k < (wordBytes v n).length := by simpa using hk
  rw [storeBytes_mem, Memory.read_writeWhere_at _ _ _ _ _ hw (by simpa using hb) hk' (h.2 k hk), wordBytes_getElem]

theorem storeBytes_sameMemoryBut (p : Nat → Bool) (a : Word) (bytes : List Byte) (s : State) :
    SameMemoryBut a bytes.length s (storeBytes p a bytes s) := by
  intro b hb
  rw [storeBytes_mem, Memory.read_writeWhere_other _ _ _ _ _ hb]

/-! ## Exceptions and CSR instructions -/

/-- What a raised exception answers with. -/
theorem raise_next (code : BitVec 12) (tval : Word) (s : State) :
    raise code tval s = .next (takeException s.pc code tval s) := rfl

/-- What `csrOp` can do. -/
theorem csrOp_cases (rd : Reg) (c : Csr) (wr : Bool) (v : Word) (s : State) :
    (∃ r, csrRefusal s c = some r ∧ csrOp rd c wr v s = .refused r) ∨
    (csrRefusal s c = none ∧ csrOp rd c wr v s = .next
      { setReg (csrUpdated s c wr v) rd (csrRead s c) with
        pc := s.pc + 4
        minstret := countAfterCsr s c wr (csrUpdated s c wr v).minstret }) := by
  cases h : csrRefusal s c <;> simp [csrOp, h]

/-- A write to a CSR changes the CSR fields, the two counters and the tx_evt pulses at most. -/
theorem csrWrite_frame (s : State) (c : Csr) (v : Word) :
    csrWrite s c v = { s with
      csr := (csrWrite s c v).csr
      mcycle := (csrWrite s c v).mcycle
      minstret := (csrWrite s c v).minstret
      txPulses := (csrWrite s c v).txPulses } := by
  cases c <;> simp only [csrWrite]
  split <;> rfl

/-- Only a write to minstret or minstreth changes the count of instructions. -/
theorem csrWrite_minstret (s : State) (c : Csr) (v : Word) (h : c ≠ .minstret) (h' : c ≠ .minstreth) :
    (csrWrite s c v).minstret = s.minstret := by
  cases c <;> simp_all [csrWrite]
  split <;> rfl

theorem csrAccess_some {s : State} {a : CsrAddr} {wr : Bool} {c : Csr} (h : csrAccess s a wr = some c) :
    csrAt a = some c ∧ accessAllowed s c wr = true := by
  unfold csrAccess at h
  split at h
  · cases h
  · split at h
    · cases h
    · split at h
      · cases h; exact ⟨by assumption, by assumption⟩
      · cases h

end Sys2Proof.Machine
end

