-- ==== Sys2Proof/Laws/PerInstr.lean ====
section
/-! SUPPORT. Decoding the encoding of a well-formed instruction gives it back, one lemma for each instruction. -/

namespace Sys2Proof

theorem decodeEncoding_full {w : Word} {i : Instr} (h : w.extractLsb' 2 3 ≠ 0b111#3) (hd : decode32 w = some i) :
    decodeEncoding (.full w) = .ok i := by
  simp only [decodeEncoding, if_neg h, hd]

theorem decodeEncoding_half {p : BitVec 16} {i : Instr} (hd : decode16 p = some i) :
    decodeEncoding (.half p) = .ok i := by
  simp only [decodeEncoding, hd]

end Sys2Proof

namespace Sys2Proof.Laws.DecodeOfEncode

/-- The encoding of the instruction decodes to it, if the instruction is well-formed. -/
def Statement (i : Instr) : Prop := i.wf = true → decodeEncoding (encode i) = .ok i

theorem lui (rd : Reg) (imm : BitVec 20) : Statement (.lui rd imm) := by
  intro _
  obtain ⟨ho, hd, hi, hl⟩ := encU_fields imm rd 0b0110111#7
  refine decodeEncoding_full (by rw [hl]; decide) ?_
  unfold decode32; rw [ho]
  rw [hd, hi]; rfl

theorem auipc (rd : Reg) (imm : BitVec 20) : Statement (.auipc rd imm) := by
  intro _
  obtain ⟨ho, hd, hi, hl⟩ := encU_fields imm rd 0b0010111#7
  refine decodeEncoding_full (by rw [hl]; decide) ?_
  unfold decode32; rw [ho]
  rw [hd, hi]; rfl

theorem addi (rd rs1 : Reg) (imm : BitVec 12) : Statement (.addi rd rs1 imm) := by
  intro _
  obtain ⟨ho, hd, h3, h1, hi, hl⟩ := encI_fields imm rs1 0b000#3 rd 0b0010011#7
  refine decodeEncoding_full (by rw [hl]; decide) ?_
  unfold decode32; rw [ho]
  show decodeOpImm _ = _
  unfold decodeOpImm; rw [h3, hd, h1, hi]; rfl

theorem slti (rd rs1 : Reg) (imm : BitVec 12) : Statement (.slti rd rs1 imm) := by
  intro _
  obtain ⟨ho, hd, h3, h1, hi, hl⟩ := encI_fields imm rs1 0b010#3 rd 0b0010011#7
  refine decodeEncoding_full (by rw [hl]; decide) ?_
  unfold decode32; rw [ho]
  show decodeOpImm _ = _
  unfold decodeOpImm; rw [h3, hd, h1, hi]; rfl

theorem sltiu (rd rs1 : Reg) (imm : BitVec 12) : Statement (.sltiu rd rs1 imm) := by
  intro _
  obtain ⟨ho, hd, h3, h1, hi, hl⟩ := encI_fields imm rs1 0b011#3 rd 0b0010011#7
  refine decodeEncoding_full (by rw [hl]; decide) ?_
  unfold decode32; rw [ho]
  show decodeOpImm _ = _
  unfold decodeOpImm; rw [h3, hd, h1, hi]; rfl

theorem xori (rd rs1 : Reg) (imm : BitVec 12) : Statement (.xori rd rs1 imm) := by
  intro _
  obtain ⟨ho, hd, h3, h1, hi, hl⟩ := encI_fields imm rs1 0b100#3 rd 0b0010011#7
  refine decodeEncoding_full (by rw [hl]; decide) ?_
  unfold decode32; rw [ho]
  show decodeOpImm _ = _
  unfold decodeOpImm; rw [h3, hd, h1, hi]; rfl

theorem ori (rd rs1 : Reg) (imm : BitVec 12) : Statement (.ori rd rs1 imm) := by
  intro _
  obtain ⟨ho, hd, h3, h1, hi, hl⟩ := encI_fields imm rs1 0b110#3 rd 0b0010011#7
  refine decodeEncoding_full (by rw [hl]; decide) ?_
  unfold decode32; rw [ho]
  show decodeOpImm _ = _
  unfold decodeOpImm; rw [h3, hd, h1, hi]; rfl

theorem andi (rd rs1 : Reg) (imm : BitVec 12) : Statement (.andi rd rs1 imm) := by
  intro _
  obtain ⟨ho, hd, h3, h1, hi, hl⟩ := encI_fields imm rs1 0b111#3 rd 0b0010011#7
  refine decodeEncoding_full (by rw [hl]; decide) ?_
  unfold decode32; rw [ho]
  show decodeOpImm _ = _
  unfold decodeOpImm; rw [h3, hd, h1, hi]; rfl

theorem slli (rd rs1 : Reg) (shamt : BitVec 5) : Statement (.slli rd rs1 shamt) := by
  intro _
  obtain ⟨ho, hd, h3, h1, h2, h7, hl⟩ := encR_fields 0b0000000#7 shamt rs1 0b001#3 rd 0b0010011#7
  refine decodeEncoding_full (by rw [hl]; decide) ?_
  unfold decode32; rw [ho]
  show decodeOpImm _ = _
  unfold decodeOpImm; rw [h3, h7, hd, h1, h2]; rfl

theorem srli (rd rs1 : Reg) (shamt : BitVec 5) : Statement (.srli rd rs1 shamt) := by
  intro _
  obtain ⟨ho, hd, h3, h1, h2, h7, hl⟩ := encR_fields 0b0000000#7 shamt rs1 0b101#3 rd 0b0010011#7
  refine decodeEncoding_full (by rw [hl]; decide) ?_
  unfold decode32; rw [ho]
  show decodeOpImm _ = _
  unfold decodeOpImm; rw [h3, h7, hd, h1, h2]; rfl

theorem srai (rd rs1 : Reg) (shamt : BitVec 5) : Statement (.srai rd rs1 shamt) := by
  intro _
  obtain ⟨ho, hd, h3, h1, h2, h7, hl⟩ := encR_fields 0b0100000#7 shamt rs1 0b101#3 rd 0b0010011#7
  refine decodeEncoding_full (by rw [hl]; decide) ?_
  unfold decode32; rw [ho]
  show decodeOpImm _ = _
  unfold decodeOpImm; rw [h3, h7, hd, h1, h2]; rfl

theorem add (rd rs1 rs2 : Reg) : Statement (.add rd rs1 rs2) := by
  intro _
  obtain ⟨ho, hd, h3, h1, h2, h7, hl⟩ := encR_fields 0b0000000#7 rs2 rs1 0b000#3 rd 0b0110011#7
  refine decodeEncoding_full (by rw [hl]; decide) ?_
  unfold decode32; rw [ho]
  show decodeOp _ = _
  unfold decodeOp; rw [h7, h3, hd, h1, h2]; rfl

theorem sub (rd rs1 rs2 : Reg) : Statement (.sub rd rs1 rs2) := by
  intro _
  obtain ⟨ho, hd, h3, h1, h2, h7, hl⟩ := encR_fields 0b0100000#7 rs2 rs1 0b000#3 rd 0b0110011#7
  refine decodeEncoding_full (by rw [hl]; decide) ?_
  unfold decode32; rw [ho]
  show decodeOp _ = _
  unfold decodeOp; rw [h7, h3, hd, h1, h2]; rfl

theorem sll (rd rs1 rs2 : Reg) : Statement (.sll rd rs1 rs2) := by
  intro _
  obtain ⟨ho, hd, h3, h1, h2, h7, hl⟩ := encR_fields 0b0000000#7 rs2 rs1 0b001#3 rd 0b0110011#7
  refine decodeEncoding_full (by rw [hl]; decide) ?_
  unfold decode32; rw [ho]
  show decodeOp _ = _
  unfold decodeOp; rw [h7, h3, hd, h1, h2]; rfl

theorem slt (rd rs1 rs2 : Reg) : Statement (.slt rd rs1 rs2) := by
  intro _
  obtain ⟨ho, hd, h3, h1, h2, h7, hl⟩ := encR_fields 0b0000000#7 rs2 rs1 0b010#3 rd 0b0110011#7
  refine decodeEncoding_full (by rw [hl]; decide) ?_
  unfold decode32; rw [ho]
  show decodeOp _ = _
  unfold decodeOp; rw [h7, h3, hd, h1, h2]; rfl

theorem sltu (rd rs1 rs2 : Reg) : Statement (.sltu rd rs1 rs2) := by
  intro _
  obtain ⟨ho, hd, h3, h1, h2, h7, hl⟩ := encR_fields 0b0000000#7 rs2 rs1 0b011#3 rd 0b0110011#7
  refine decodeEncoding_full (by rw [hl]; decide) ?_
  unfold decode32; rw [ho]
  show decodeOp _ = _
  unfold decodeOp; rw [h7, h3, hd, h1, h2]; rfl

theorem xor (rd rs1 rs2 : Reg) : Statement (.xor rd rs1 rs2) := by
  intro _
  obtain ⟨ho, hd, h3, h1, h2, h7, hl⟩ := encR_fields 0b0000000#7 rs2 rs1 0b100#3 rd 0b0110011#7
  refine decodeEncoding_full (by rw [hl]; decide) ?_
  unfold decode32; rw [ho]
  show decodeOp _ = _
  unfold decodeOp; rw [h7, h3, hd, h1, h2]; rfl

theorem srl (rd rs1 rs2 : Reg) : Statement (.srl rd rs1 rs2) := by
  intro _
  obtain ⟨ho, hd, h3, h1, h2, h7, hl⟩ := encR_fields 0b0000000#7 rs2 rs1 0b101#3 rd 0b0110011#7
  refine decodeEncoding_full (by rw [hl]; decide) ?_
  unfold decode32; rw [ho]
  show decodeOp _ = _
  unfold decodeOp; rw [h7, h3, hd, h1, h2]; rfl

theorem sra (rd rs1 rs2 : Reg) : Statement (.sra rd rs1 rs2) := by
  intro _
  obtain ⟨ho, hd, h3, h1, h2, h7, hl⟩ := encR_fields 0b0100000#7 rs2 rs1 0b101#3 rd 0b0110011#7
  refine decodeEncoding_full (by rw [hl]; decide) ?_
  unfold decode32; rw [ho]
  show decodeOp _ = _
  unfold decodeOp; rw [h7, h3, hd, h1, h2]; rfl

theorem or (rd rs1 rs2 : Reg) : Statement (.or rd rs1 rs2) := by
  intro _
  obtain ⟨ho, hd, h3, h1, h2, h7, hl⟩ := encR_fields 0b0000000#7 rs2 rs1 0b110#3 rd 0b0110011#7
  refine decodeEncoding_full (by rw [hl]; decide) ?_
  unfold decode32; rw [ho]
  show decodeOp _ = _
  unfold decodeOp; rw [h7, h3, hd, h1, h2]; rfl

theorem and (rd rs1 rs2 : Reg) : Statement (.and rd rs1 rs2) := by
  intro _
  obtain ⟨ho, hd, h3, h1, h2, h7, hl⟩ := encR_fields 0b0000000#7 rs2 rs1 0b111#3 rd 0b0110011#7
  refine decodeEncoding_full (by rw [hl]; decide) ?_
  unfold decode32; rw [ho]
  show decodeOp _ = _
  unfold decodeOp; rw [h7, h3, hd, h1, h2]; rfl

theorem jal (rd : Reg) (offset : BitVec 21) : Statement (.jal rd offset) := by
  intro h
  obtain ⟨ho, hd, hl⟩ := encJ_fields offset rd
  refine decodeEncoding_full (by rw [hl]; decide) ?_
  unfold decode32; rw [ho]
  rw [hd, immJ_encJ _ _ h]; rfl

theorem jalr (rd rs1 : Reg) (imm : BitVec 12) : Statement (.jalr rd rs1 imm) := by
  intro _
  obtain ⟨ho, hd, h3, h1, hi, hl⟩ := encI_fields imm rs1 0b000#3 rd 0b1100111#7
  refine decodeEncoding_full (by rw [hl]; decide) ?_
  unfold decode32; rw [ho]
  simp only [h3, hd, h1, hi]; rfl

theorem beq (rs1 rs2 : Reg) (offset : BitVec 13) : Statement (.beq rs1 rs2 offset) := by
  intro h
  obtain ⟨ho, h3, h1, h2, hl⟩ := encB_fields offset rs2 rs1 0b000#3
  refine decodeEncoding_full (by rw [hl]; decide) ?_
  unfold decode32; rw [ho]
  show decodeBranch _ = _
  unfold decodeBranch; rw [h3, h1, h2, immB_encB _ _ _ _ h]; rfl

theorem bne (rs1 rs2 : Reg) (offset : BitVec 13) : Statement (.bne rs1 rs2 offset) := by
  intro h
  obtain ⟨ho, h3, h1, h2, hl⟩ := encB_fields offset rs2 rs1 0b001#3
  refine decodeEncoding_full (by rw [hl]; decide) ?_
  unfold decode32; rw [ho]
  show decodeBranch _ = _
  unfold decodeBranch; rw [h3, h1, h2, immB_encB _ _ _ _ h]; rfl

theorem blt (rs1 rs2 : Reg) (offset : BitVec 13) : Statement (.blt rs1 rs2 offset) := by
  intro h
  obtain ⟨ho, h3, h1, h2, hl⟩ := encB_fields offset rs2 rs1 0b100#3
  refine decodeEncoding_full (by rw [hl]; decide) ?_
  unfold decode32; rw [ho]
  show decodeBranch _ = _
  unfold decodeBranch; rw [h3, h1, h2, immB_encB _ _ _ _ h]; rfl

theorem bge (rs1 rs2 : Reg) (offset : BitVec 13) : Statement (.bge rs1 rs2 offset) := by
  intro h
  obtain ⟨ho, h3, h1, h2, hl⟩ := encB_fields offset rs2 rs1 0b101#3
  refine decodeEncoding_full (by rw [hl]; decide) ?_
  unfold decode32; rw [ho]
  show decodeBranch _ = _
  unfold decodeBranch; rw [h3, h1, h2, immB_encB _ _ _ _ h]; rfl

theorem bltu (rs1 rs2 : Reg) (offset : BitVec 13) : Statement (.bltu rs1 rs2 offset) := by
  intro h
  obtain ⟨ho, h3, h1, h2, hl⟩ := encB_fields offset rs2 rs1 0b110#3
  refine decodeEncoding_full (by rw [hl]; decide) ?_
  unfold decode32; rw [ho]
  show decodeBranch _ = _
  unfold decodeBranch; rw [h3, h1, h2, immB_encB _ _ _ _ h]; rfl

theorem bgeu (rs1 rs2 : Reg) (offset : BitVec 13) : Statement (.bgeu rs1 rs2 offset) := by
  intro h
  obtain ⟨ho, h3, h1, h2, hl⟩ := encB_fields offset rs2 rs1 0b111#3
  refine decodeEncoding_full (by rw [hl]; decide) ?_
  unfold decode32; rw [ho]
  show decodeBranch _ = _
  unfold decodeBranch; rw [h3, h1, h2, immB_encB _ _ _ _ h]; rfl

theorem lb (rd rs1 : Reg) (imm : BitVec 12) : Statement (.lb rd rs1 imm) := by
  intro _
  obtain ⟨ho, hd, h3, h1, hi, hl⟩ := encI_fields imm rs1 0b000#3 rd 0b0000011#7
  refine decodeEncoding_full (by rw [hl]; decide) ?_
  unfold decode32; rw [ho]
  show decodeLoad _ = _
  unfold decodeLoad; rw [h3, hd, h1, hi]; rfl

theorem lh (rd rs1 : Reg) (imm : BitVec 12) : Statement (.lh rd rs1 imm) := by
  intro _
  obtain ⟨ho, hd, h3, h1, hi, hl⟩ := encI_fields imm rs1 0b001#3 rd 0b0000011#7
  refine decodeEncoding_full (by rw [hl]; decide) ?_
  unfold decode32; rw [ho]
  show decodeLoad _ = _
  unfold decodeLoad; rw [h3, hd, h1, hi]; rfl

theorem lw (rd rs1 : Reg) (imm : BitVec 12) : Statement (.lw rd rs1 imm) := by
  intro _
  obtain ⟨ho, hd, h3, h1, hi, hl⟩ := encI_fields imm rs1 0b010#3 rd 0b0000011#7
  refine decodeEncoding_full (by rw [hl]; decide) ?_
  unfold decode32; rw [ho]
  show decodeLoad _ = _
  unfold decodeLoad; rw [h3, hd, h1, hi]; rfl

theorem lbu (rd rs1 : Reg) (imm : BitVec 12) : Statement (.lbu rd rs1 imm) := by
  intro _
  obtain ⟨ho, hd, h3, h1, hi, hl⟩ := encI_fields imm rs1 0b100#3 rd 0b0000011#7
  refine decodeEncoding_full (by rw [hl]; decide) ?_
  unfold decode32; rw [ho]
  show decodeLoad _ = _
  unfold decodeLoad; rw [h3, hd, h1, hi]; rfl

theorem lhu (rd rs1 : Reg) (imm : BitVec 12) : Statement (.lhu rd rs1 imm) := by
  intro _
  obtain ⟨ho, hd, h3, h1, hi, hl⟩ := encI_fields imm rs1 0b101#3 rd 0b0000011#7
  refine decodeEncoding_full (by rw [hl]; decide) ?_
  unfold decode32; rw [ho]
  show decodeLoad _ = _
  unfold decodeLoad; rw [h3, hd, h1, hi]; rfl

theorem sb (rs1 rs2 : Reg) (imm : BitVec 12) : Statement (.sb rs1 rs2 imm) := by
  intro _
  obtain ⟨ho, h3, h1, h2, hi, hl⟩ := encS_fields imm rs2 rs1 0b000#3
  refine decodeEncoding_full (by rw [hl]; decide) ?_
  unfold decode32; rw [ho]
  show decodeStore _ = _
  unfold decodeStore; rw [h3, h1, h2, hi]; rfl

theorem sh (rs1 rs2 : Reg) (imm : BitVec 12) : Statement (.sh rs1 rs2 imm) := by
  intro _
  obtain ⟨ho, h3, h1, h2, hi, hl⟩ := encS_fields imm rs2 rs1 0b001#3
  refine decodeEncoding_full (by rw [hl]; decide) ?_
  unfold decode32; rw [ho]
  show decodeStore _ = _
  unfold decodeStore; rw [h3, h1, h2, hi]; rfl

theorem sw (rs1 rs2 : Reg) (imm : BitVec 12) : Statement (.sw rs1 rs2 imm) := by
  intro _
  obtain ⟨ho, h3, h1, h2, hi, hl⟩ := encS_fields imm rs2 rs1 0b010#3
  refine decodeEncoding_full (by rw [hl]; decide) ?_
  unfold decode32; rw [ho]
  show decodeStore _ = _
  unfold decodeStore; rw [h3, h1, h2, hi]; rfl

theorem fence (fm pred succ : BitVec 4) (rs1 rd : Reg) : Statement (.fence fm pred succ rs1 rd) := by
  intro _
  obtain ⟨ho, hd, h3, h1, _, hl⟩ := encI_fields (fm ++ pred ++ succ) rs1 0b000#3 rd 0b0001111#7
  obtain ⟨hf, hp, hs⟩ := encI_fence_fields fm pred succ rs1 0b000#3 rd 0b0001111#7
  refine decodeEncoding_full (by rw [hl]; decide) ?_
  unfold decode32; rw [ho]
  show decodeMiscMem _ = _
  unfold decodeMiscMem; rw [h3, hf, hp, hs, h1, hd]; rfl

theorem fenceI (imm : BitVec 12) (rs1 rd : Reg) : Statement (.fenceI imm rs1 rd) := by
  intro _
  obtain ⟨ho, hd, h3, h1, hi, hl⟩ := encI_fields imm rs1 0b001#3 rd 0b0001111#7
  refine decodeEncoding_full (by rw [hl]; decide) ?_
  unfold decode32; rw [ho]
  show decodeMiscMem _ = _
  unfold decodeMiscMem; rw [h3, hd, h1, hi]; rfl

theorem ecall : Statement .ecall := by
  intro _
  rfl

theorem ebreak : Statement .ebreak := by
  intro _
  rfl

theorem mret : Statement .mret := by
  intro _
  rfl

theorem wfi : Statement .wfi := by
  intro _
  rfl

theorem csrrw (rd rs1 : Reg) (csr : CsrAddr) : Statement (.csrrw rd rs1 csr) := by
  intro _
  obtain ⟨ho, hd, h3, h1, hi, hl⟩ := encI_fields csr rs1 0b001#3 rd 0b1110011#7
  refine decodeEncoding_full (by rw [hl]; decide) ?_
  unfold decode32; rw [ho]
  show decodeSystem _ = _
  unfold decodeSystem; rw [h3, hd, h1, hi]; rfl

theorem csrrs (rd rs1 : Reg) (csr : CsrAddr) : Statement (.csrrs rd rs1 csr) := by
  intro _
  obtain ⟨ho, hd, h3, h1, hi, hl⟩ := encI_fields csr rs1 0b010#3 rd 0b1110011#7
  refine decodeEncoding_full (by rw [hl]; decide) ?_
  unfold decode32; rw [ho]
  show decodeSystem _ = _
  unfold decodeSystem; rw [h3, hd, h1, hi]; rfl

theorem csrrc (rd rs1 : Reg) (csr : CsrAddr) : Statement (.csrrc rd rs1 csr) := by
  intro _
  obtain ⟨ho, hd, h3, h1, hi, hl⟩ := encI_fields csr rs1 0b011#3 rd 0b1110011#7
  refine decodeEncoding_full (by rw [hl]; decide) ?_
  unfold decode32; rw [ho]
  show decodeSystem _ = _
  unfold decodeSystem; rw [h3, hd, h1, hi]; rfl

theorem csrrwi (rd : Reg) (uimm : BitVec 5) (csr : CsrAddr) : Statement (.csrrwi rd uimm csr) := by
  intro _
  obtain ⟨ho, hd, h3, h1, hi, hl⟩ := encI_fields csr uimm 0b101#3 rd 0b1110011#7
  refine decodeEncoding_full (by rw [hl]; decide) ?_
  unfold decode32; rw [ho]
  show decodeSystem _ = _
  unfold decodeSystem; rw [h3, hd, h1, hi]; rfl

theorem csrrsi (rd : Reg) (uimm : BitVec 5) (csr : CsrAddr) : Statement (.csrrsi rd uimm csr) := by
  intro _
  obtain ⟨ho, hd, h3, h1, hi, hl⟩ := encI_fields csr uimm 0b110#3 rd 0b1110011#7
  refine decodeEncoding_full (by rw [hl]; decide) ?_
  unfold decode32; rw [ho]
  show decodeSystem _ = _
  unfold decodeSystem; rw [h3, hd, h1, hi]; rfl

theorem csrrci (rd : Reg) (uimm : BitVec 5) (csr : CsrAddr) : Statement (.csrrci rd uimm csr) := by
  intro _
  obtain ⟨ho, hd, h3, h1, hi, hl⟩ := encI_fields csr uimm 0b111#3 rd 0b1110011#7
  refine decodeEncoding_full (by rw [hl]; decide) ?_
  unfold decode32; rw [ho]
  show decodeSystem _ = _
  unfold decodeSystem; rw [h3, hd, h1, hi]; rfl

theorem mul (rd rs1 rs2 : Reg) : Statement (.mul rd rs1 rs2) := by
  intro _
  obtain ⟨ho, hd, h3, h1, h2, h7, hl⟩ := encR_fields 0b0000001#7 rs2 rs1 0b000#3 rd 0b0110011#7
  refine decodeEncoding_full (by rw [hl]; decide) ?_
  unfold decode32; rw [ho]
  show decodeOp _ = _
  unfold decodeOp; rw [h7, h3, hd, h1, h2]; rfl

theorem mulh (rd rs1 rs2 : Reg) : Statement (.mulh rd rs1 rs2) := by
  intro _
  obtain ⟨ho, hd, h3, h1, h2, h7, hl⟩ := encR_fields 0b0000001#7 rs2 rs1 0b001#3 rd 0b0110011#7
  refine decodeEncoding_full (by rw [hl]; decide) ?_
  unfold decode32; rw [ho]
  show decodeOp _ = _
  unfold decodeOp; rw [h7, h3, hd, h1, h2]; rfl

theorem mulhsu (rd rs1 rs2 : Reg) : Statement (.mulhsu rd rs1 rs2) := by
  intro _
  obtain ⟨ho, hd, h3, h1, h2, h7, hl⟩ := encR_fields 0b0000001#7 rs2 rs1 0b010#3 rd 0b0110011#7
  refine decodeEncoding_full (by rw [hl]; decide) ?_
  unfold decode32; rw [ho]
  show decodeOp _ = _
  unfold decodeOp; rw [h7, h3, hd, h1, h2]; rfl

theorem mulhu (rd rs1 rs2 : Reg) : Statement (.mulhu rd rs1 rs2) := by
  intro _
  obtain ⟨ho, hd, h3, h1, h2, h7, hl⟩ := encR_fields 0b0000001#7 rs2 rs1 0b011#3 rd 0b0110011#7
  refine decodeEncoding_full (by rw [hl]; decide) ?_
  unfold decode32; rw [ho]
  show decodeOp _ = _
  unfold decodeOp; rw [h7, h3, hd, h1, h2]; rfl

theorem div (rd rs1 rs2 : Reg) : Statement (.div rd rs1 rs2) := by
  intro _
  obtain ⟨ho, hd, h3, h1, h2, h7, hl⟩ := encR_fields 0b0000001#7 rs2 rs1 0b100#3 rd 0b0110011#7
  refine decodeEncoding_full (by rw [hl]; decide) ?_
  unfold decode32; rw [ho]
  show decodeOp _ = _
  unfold decodeOp; rw [h7, h3, hd, h1, h2]; rfl

theorem divu (rd rs1 rs2 : Reg) : Statement (.divu rd rs1 rs2) := by
  intro _
  obtain ⟨ho, hd, h3, h1, h2, h7, hl⟩ := encR_fields 0b0000001#7 rs2 rs1 0b101#3 rd 0b0110011#7
  refine decodeEncoding_full (by rw [hl]; decide) ?_
  unfold decode32; rw [ho]
  show decodeOp _ = _
  unfold decodeOp; rw [h7, h3, hd, h1, h2]; rfl

theorem rem (rd rs1 rs2 : Reg) : Statement (.rem rd rs1 rs2) := by
  intro _
  obtain ⟨ho, hd, h3, h1, h2, h7, hl⟩ := encR_fields 0b0000001#7 rs2 rs1 0b110#3 rd 0b0110011#7
  refine decodeEncoding_full (by rw [hl]; decide) ?_
  unfold decode32; rw [ho]
  show decodeOp _ = _
  unfold decodeOp; rw [h7, h3, hd, h1, h2]; rfl

theorem remu (rd rs1 rs2 : Reg) : Statement (.remu rd rs1 rs2) := by
  intro _
  obtain ⟨ho, hd, h3, h1, h2, h7, hl⟩ := encR_fields 0b0000001#7 rs2 rs1 0b111#3 rd 0b0110011#7
  refine decodeEncoding_full (by rw [hl]; decide) ?_
  unfold decode32; rw [ho]
  show decodeOp _ = _
  unfold decodeOp; rw [h7, h3, hd, h1, h2]; rfl

theorem lrW (rd rs1 : Reg) (aq rl : BitVec 1) : Statement (.lrW rd rs1 aq rl) := by
  intro _
  obtain ⟨ho, hd, h3, h1, h2, h5, ha, hr, hl⟩ := encA_fields 0b00010#5 aq rl 0#5 rs1 rd
  refine decodeEncoding_full (by rw [hl]; decide) ?_
  unfold decode32; rw [ho]
  show decodeAmo _ = _
  unfold decodeAmo; rw [h3, h5, h2, hd, h1, ha, hr]; rfl

theorem scW (rd rs1 rs2 : Reg) (aq rl : BitVec 1) : Statement (.scW rd rs1 rs2 aq rl) := by
  intro _
  obtain ⟨ho, hd, h3, h1, h2, h5, ha, hr, hl⟩ := encA_fields 0b00011#5 aq rl rs2 rs1 rd
  refine decodeEncoding_full (by rw [hl]; decide) ?_
  unfold decode32; rw [ho]
  show decodeAmo _ = _
  unfold decodeAmo; rw [h3, h5, hd, h1, h2, ha, hr]; rfl

theorem amoswapW (rd rs1 rs2 : Reg) (aq rl : BitVec 1) : Statement (.amoswapW rd rs1 rs2 aq rl) := by
  intro _
  obtain ⟨ho, hd, h3, h1, h2, h5, ha, hr, hl⟩ := encA_fields 0b00001#5 aq rl rs2 rs1 rd
  refine decodeEncoding_full (by rw [hl]; decide) ?_
  unfold decode32; rw [ho]
  show decodeAmo _ = _
  unfold decodeAmo; rw [h3, h5, hd, h1, h2, ha, hr]; rfl

theorem amoaddW (rd rs1 rs2 : Reg) (aq rl : BitVec 1) : Statement (.amoaddW rd rs1 rs2 aq rl) := by
  intro _
  obtain ⟨ho, hd, h3, h1, h2, h5, ha, hr, hl⟩ := encA_fields 0b00000#5 aq rl rs2 rs1 rd
  refine decodeEncoding_full (by rw [hl]; decide) ?_
  unfold decode32; rw [ho]
  show decodeAmo _ = _
  unfold decodeAmo; rw [h3, h5, hd, h1, h2, ha, hr]; rfl

theorem amoxorW (rd rs1 rs2 : Reg) (aq rl : BitVec 1) : Statement (.amoxorW rd rs1 rs2 aq rl) := by
  intro _
  obtain ⟨ho, hd, h3, h1, h2, h5, ha, hr, hl⟩ := encA_fields 0b00100#5 aq rl rs2 rs1 rd
  refine decodeEncoding_full (by rw [hl]; decide) ?_
  unfold decode32; rw [ho]
  show decodeAmo _ = _
  unfold decodeAmo; rw [h3, h5, hd, h1, h2, ha, hr]; rfl

theorem amoandW (rd rs1 rs2 : Reg) (aq rl : BitVec 1) : Statement (.amoandW rd rs1 rs2 aq rl) := by
  intro _
  obtain ⟨ho, hd, h3, h1, h2, h5, ha, hr, hl⟩ := encA_fields 0b01100#5 aq rl rs2 rs1 rd
  refine decodeEncoding_full (by rw [hl]; decide) ?_
  unfold decode32; rw [ho]
  show decodeAmo _ = _
  unfold decodeAmo; rw [h3, h5, hd, h1, h2, ha, hr]; rfl

theorem amoorW (rd rs1 rs2 : Reg) (aq rl : BitVec 1) : Statement (.amoorW rd rs1 rs2 aq rl) := by
  intro _
  obtain ⟨ho, hd, h3, h1, h2, h5, ha, hr, hl⟩ := encA_fields 0b01000#5 aq rl rs2 rs1 rd
  refine decodeEncoding_full (by rw [hl]; decide) ?_
  unfold decode32; rw [ho]
  show decodeAmo _ = _
  unfold decodeAmo; rw [h3, h5, hd, h1, h2, ha, hr]; rfl

theorem amominW (rd rs1 rs2 : Reg) (aq rl : BitVec 1) : Statement (.amominW rd rs1 rs2 aq rl) := by
  intro _
  obtain ⟨ho, hd, h3, h1, h2, h5, ha, hr, hl⟩ := encA_fields 0b10000#5 aq rl rs2 rs1 rd
  refine decodeEncoding_full (by rw [hl]; decide) ?_
  unfold decode32; rw [ho]
  show decodeAmo _ = _
  unfold decodeAmo; rw [h3, h5, hd, h1, h2, ha, hr]; rfl

theorem amomaxW (rd rs1 rs2 : Reg) (aq rl : BitVec 1) : Statement (.amomaxW rd rs1 rs2 aq rl) := by
  intro _
  obtain ⟨ho, hd, h3, h1, h2, h5, ha, hr, hl⟩ := encA_fields 0b10100#5 aq rl rs2 rs1 rd
  refine decodeEncoding_full (by rw [hl]; decide) ?_
  unfold decode32; rw [ho]
  show decodeAmo _ = _
  unfold decodeAmo; rw [h3, h5, hd, h1, h2, ha, hr]; rfl

theorem amominuW (rd rs1 rs2 : Reg) (aq rl : BitVec 1) : Statement (.amominuW rd rs1 rs2 aq rl) := by
  intro _
  obtain ⟨ho, hd, h3, h1, h2, h5, ha, hr, hl⟩ := encA_fields 0b11000#5 aq rl rs2 rs1 rd
  refine decodeEncoding_full (by rw [hl]; decide) ?_
  unfold decode32; rw [ho]
  show decodeAmo _ = _
  unfold decodeAmo; rw [h3, h5, hd, h1, h2, ha, hr]; rfl

theorem amomaxuW (rd rs1 rs2 : Reg) (aq rl : BitVec 1) : Statement (.amomaxuW rd rs1 rs2 aq rl) := by
  intro _
  obtain ⟨ho, hd, h3, h1, h2, h5, ha, hr, hl⟩ := encA_fields 0b11100#5 aq rl rs2 rs1 rd
  refine decodeEncoding_full (by rw [hl]; decide) ?_
  unfold decode32; rw [ho]
  show decodeAmo _ = _
  unfold decodeAmo; rw [h3, h5, hd, h1, h2, ha, hr]; rfl

theorem cAddi4spn (rd : CReg) (nzuimm : BitVec 10) : Statement (.cAddi4spn rd nzuimm) := by
  intro h
  simp only [Instr.wf, Bool.and_eq_true, bne_iff_ne, ne_eq] at h
  obtain ⟨hq, h3, h1⟩ := encCiw_fields rd nzuimm
  refine decodeEncoding_half ?_
  unfold decode16; rw [hq]
  show decodeQ0 _ = _
  unfold decodeQ0; rw [h3, immCiw_encCiw _ _ h.1, if_neg (h.2), h1]
  rfl

theorem cLw (rd rs1 : CReg) (uimm : BitVec 7) : Statement (.cLw rd rs1 uimm) := by
  intro h
  obtain ⟨hq, h3, h1, h2⟩ := encCls_fields 0b010#3 rs1 rd uimm
  refine decodeEncoding_half ?_
  unfold decode16; rw [hq]
  show decodeQ0 _ = _
  unfold decodeQ0; rw [h3, h1, h2, immCl_encCls _ _ _ _ h]
  rfl

theorem cSw (rs1 rs2 : CReg) (uimm : BitVec 7) : Statement (.cSw rs1 rs2 uimm) := by
  intro h
  obtain ⟨hq, h3, h1, h2⟩ := encCls_fields 0b110#3 rs1 rs2 uimm
  refine decodeEncoding_half ?_
  unfold decode16; rw [hq]
  show decodeQ0 _ = _
  unfold decodeQ0; rw [h3, h1, h2, immCl_encCls _ _ _ _ h]
  rfl

theorem cNop (imm : BitVec 6) : Statement (.cNop imm) := by
  intro _
  obtain ⟨hq, h3, hd, hi⟩ := encCi_fields 0b000#3 imm 0#5 0b01#2
  refine decodeEncoding_half ?_
  unfold decode16; rw [hq]
  show decodeQ1 _ = _
  unfold decodeQ1; rw [h3, hd, hi]
  rfl

theorem cAddi (rd : Reg) (imm : BitVec 6) : Statement (.cAddi rd imm) := by
  intro h
  simp only [Instr.wf, bne_iff_ne, ne_eq] at h
  obtain ⟨hq, h3, hd, hi⟩ := encCi_fields 0b000#3 imm rd 0b01#2
  refine decodeEncoding_half ?_
  unfold decode16; rw [hq]
  show decodeQ1 _ = _
  unfold decodeQ1; rw [h3, hd, hi]
  exact if_neg h

theorem cJal (offset : BitVec 12) : Statement (.cJal offset) := by
  intro h
  obtain ⟨hq, h3⟩ := encCj_fields 0b001#3 offset
  refine decodeEncoding_half ?_
  unfold decode16; rw [hq]
  show decodeQ1 _ = _
  unfold decodeQ1; rw [h3, immCj_encCj _ _ h]
  rfl

theorem cLi (rd : Reg) (imm : BitVec 6) : Statement (.cLi rd imm) := by
  intro _
  obtain ⟨hq, h3, hd, hi⟩ := encCi_fields 0b010#3 imm rd 0b01#2
  refine decodeEncoding_half ?_
  unfold decode16; rw [hq]
  show decodeQ1 _ = _
  unfold decodeQ1; rw [h3, hd, hi]
  rfl

theorem cAddi16sp (nzimm : BitVec 10) : Statement (.cAddi16sp nzimm) := by
  intro h
  simp only [Instr.wf, Bool.and_eq_true, bne_iff_ne, ne_eq] at h
  obtain ⟨hq, h3, hd⟩ := encC16sp_fields nzimm
  refine decodeEncoding_half ?_
  unfold decode16; rw [hq]
  show decodeQ1 _ = _
  unfold decodeQ1; rw [h3]
  show decodeQ1Lui _ = _
  unfold decodeQ1Lui; rw [hd, immC16sp_encC16sp _ h.1, if_pos rfl, if_neg (h.2)]

theorem cLui (rd : Reg) (nzimm : BitVec 6) : Statement (.cLui rd nzimm) := by
  intro h
  simp only [Instr.wf, Bool.and_eq_true, bne_iff_ne, ne_eq] at h
  obtain ⟨hq, h3, hd, hi⟩ := encCi_fields 0b011#3 nzimm rd 0b01#2
  refine decodeEncoding_half ?_
  unfold decode16; rw [hq]
  show decodeQ1 _ = _
  unfold decodeQ1; rw [h3]
  show decodeQ1Lui _ = _
  unfold decodeQ1Lui; rw [hd, hi, if_neg (h.1), if_neg (h.2)]

theorem cSrli (rd : CReg) (shamt : BitVec 5) : Statement (.cSrli rd shamt) := by
  intro _
  obtain ⟨hq, h3, h1, h2, hb, hx⟩ := encCshift_fields 0b00#2 rd shamt
  refine decodeEncoding_half ?_
  unfold decode16; rw [hq]
  show decodeQ1 _ = _
  unfold decodeQ1; rw [h3]
  show decodeQ1Alu _ = _
  unfold decodeQ1Alu; rw [hx, hb, h1, h2]
  rfl

theorem cSrai (rd : CReg) (shamt : BitVec 5) : Statement (.cSrai rd shamt) := by
  intro _
  obtain ⟨hq, h3, h1, h2, hb, hx⟩ := encCshift_fields 0b01#2 rd shamt
  refine decodeEncoding_half ?_
  unfold decode16; rw [hq]
  show decodeQ1 _ = _
  unfold decodeQ1; rw [h3]
  show decodeQ1Alu _ = _
  unfold decodeQ1Alu; rw [hx, hb, h1, h2]
  rfl

theorem cAndi (rd : CReg) (imm : BitVec 6) : Statement (.cAndi rd imm) := by
  intro _
  obtain ⟨hq, h3, hx, h1, hi⟩ := encCandi_fields rd imm
  refine decodeEncoding_half ?_
  unfold decode16; rw [hq]
  show decodeQ1 _ = _
  unfold decodeQ1; rw [h3]
  show decodeQ1Alu _ = _
  unfold decodeQ1Alu; rw [hx, h1, hi]
  rfl

theorem cSub (rd rs2 : CReg) : Statement (.cSub rd rs2) := by
  intro _
  obtain ⟨hq, h3, h1, h2, hb, hx, hy⟩ := encCa_fields 0b00#2 rd rs2
  refine decodeEncoding_half ?_
  unfold decode16; rw [hq]
  show decodeQ1 _ = _
  unfold decodeQ1; rw [h3]
  show decodeQ1Alu _ = _
  unfold decodeQ1Alu; rw [hx, hb, hy, h1, h2]
  rfl

theorem cXor (rd rs2 : CReg) : Statement (.cXor rd rs2) := by
  intro _
  obtain ⟨hq, h3, h1, h2, hb, hx, hy⟩ := encCa_fields 0b01#2 rd rs2
  refine decodeEncoding_half ?_
  unfold decode16; rw [hq]
  show decodeQ1 _ = _
  unfold decodeQ1; rw [h3]
  show decodeQ1Alu _ = _
  unfold decodeQ1Alu; rw [hx, hb, hy, h1, h2]
  rfl

theorem cOr (rd rs2 : CReg) : Statement (.cOr rd rs2) := by
  intro _
  obtain ⟨hq, h3, h1, h2, hb, hx, hy⟩ := encCa_fields 0b10#2 rd rs2
  refine decodeEncoding_half ?_
  unfold decode16; rw [hq]
  show decodeQ1 _ = _
  unfold decodeQ1; rw [h3]
  show decodeQ1Alu _ = _
  unfold decodeQ1Alu; rw [hx, hb, hy, h1, h2]
  rfl

theorem cAnd (rd rs2 : CReg) : Statement (.cAnd rd rs2) := by
  intro _
  obtain ⟨hq, h3, h1, h2, hb, hx, hy⟩ := encCa_fields 0b11#2 rd rs2
  refine decodeEncoding_half ?_
  unfold decode16; rw [hq]
  show decodeQ1 _ = _
  unfold decodeQ1; rw [h3]
  show decodeQ1Alu _ = _
  unfold decodeQ1Alu; rw [hx, hb, hy, h1, h2]
  rfl

theorem cJ (offset : BitVec 12) : Statement (.cJ offset) := by
  intro h
  obtain ⟨hq, h3⟩ := encCj_fields 0b101#3 offset
  refine decodeEncoding_half ?_
  unfold decode16; rw [hq]
  show decodeQ1 _ = _
  unfold decodeQ1; rw [h3, immCj_encCj _ _ h]
  rfl

theorem cBeqz (rs1 : CReg) (offset : BitVec 9) : Statement (.cBeqz rs1 offset) := by
  intro h
  obtain ⟨hq, h3, h1⟩ := encCb_fields 0b110#3 rs1 offset
  refine decodeEncoding_half ?_
  unfold decode16; rw [hq]
  show decodeQ1 _ = _
  unfold decodeQ1; rw [h3, h1, immCb_encCb _ _ _ h]
  rfl

theorem cBnez (rs1 : CReg) (offset : BitVec 9) : Statement (.cBnez rs1 offset) := by
  intro h
  obtain ⟨hq, h3, h1⟩ := encCb_fields 0b111#3 rs1 offset
  refine decodeEncoding_half ?_
  unfold decode16; rw [hq]
  show decodeQ1 _ = _
  unfold decodeQ1; rw [h3, h1, immCb_encCb _ _ _ h]
  rfl

theorem cSlli (rd : Reg) (shamt : BitVec 5) : Statement (.cSlli rd shamt) := by
  intro _
  obtain ⟨hq, h3, hb, h1, h2⟩ := encCslli_fields rd shamt
  refine decodeEncoding_half ?_
  unfold decode16; rw [hq]
  show decodeQ2 _ = _
  unfold decodeQ2; rw [h3, hb, h1, h2]
  rfl

theorem cLwsp (rd : Reg) (uimm : BitVec 8) : Statement (.cLwsp rd uimm) := by
  intro h
  simp only [Instr.wf, Bool.and_eq_true, bne_iff_ne, ne_eq] at h
  obtain ⟨hq, h3, h1⟩ := encClwsp_fields rd uimm
  refine decodeEncoding_half ?_
  unfold decode16; rw [hq]
  show decodeQ2 _ = _
  unfold decodeQ2; rw [h3, h1, immClwsp_encClwsp _ _ h.1]
  exact if_neg h.2

theorem cJr (rs1 : Reg) : Statement (.cJr rs1) := by
  intro h
  simp only [Instr.wf, bne_iff_ne, ne_eq] at h
  obtain ⟨hq, h3, h1, h2, hb⟩ := encCr_fields 0b1000#4 rs1 0#5
  refine decodeEncoding_half ?_
  unfold decode16; rw [hq]
  show decodeQ2 _ = _
  unfold decodeQ2; rw [h3]
  show decodeQ2Jump _ = _
  unfold decodeQ2Jump; rw [hb, h2, h1]
  exact if_neg h

theorem cMv (rd rs2 : Reg) : Statement (.cMv rd rs2) := by
  intro h
  simp only [Instr.wf, bne_iff_ne, ne_eq] at h
  obtain ⟨hq, h3, h1, h2, hb⟩ := encCr_fields 0b1000#4 rd rs2
  refine decodeEncoding_half ?_
  unfold decode16; rw [hq]
  show decodeQ2 _ = _
  unfold decodeQ2; rw [h3]
  show decodeQ2Jump _ = _
  unfold decodeQ2Jump; rw [hb, h2, h1]
  exact if_neg h

theorem cEbreak : Statement .cEbreak := by
  intro _
  rfl

theorem cJalr (rs1 : Reg) : Statement (.cJalr rs1) := by
  intro h
  simp only [Instr.wf, bne_iff_ne, ne_eq] at h
  obtain ⟨hq, h3, h1, h2, hb⟩ := encCr_fields 0b1001#4 rs1 0#5
  refine decodeEncoding_half ?_
  unfold decode16; rw [hq]
  show decodeQ2 _ = _
  unfold decodeQ2; rw [h3]
  show decodeQ2Jump _ = _
  unfold decodeQ2Jump; rw [hb, h2, h1]
  exact if_neg h

theorem cAdd (rd rs2 : Reg) : Statement (.cAdd rd rs2) := by
  intro h
  simp only [Instr.wf, bne_iff_ne, ne_eq] at h
  obtain ⟨hq, h3, h1, h2, hb⟩ := encCr_fields 0b1001#4 rd rs2
  refine decodeEncoding_half ?_
  unfold decode16; rw [hq]
  show decodeQ2 _ = _
  unfold decodeQ2; rw [h3]
  show decodeQ2Jump _ = _
  unfold decodeQ2Jump; rw [hb, h2, h1]
  exact if_neg h

theorem cSwsp (rs2 : Reg) (uimm : BitVec 8) : Statement (.cSwsp rs2 uimm) := by
  intro h
  obtain ⟨hq, h3, h1⟩ := encCss_fields rs2 uimm
  refine decodeEncoding_half ?_
  unfold decode16; rw [hq]
  show decodeQ2 _ = _
  unfold decodeQ2; rw [h3, h1, immCss_encCss _ _ h]
  rfl

end Sys2Proof.Laws.DecodeOfEncode
end

