-- ==== Sys2Proof/Tests/Slice0.lean ====
section
/-! SUPPORT. Tests: ill-formed terms refused, a word of each instruction as the spec writes it out (the examples of 40 to
46), single steps with the results of 95_test_vectors.md, and a witness for the hypotheses of each statement. -/

namespace Sys2Proof.Tests

open Sys2Proof Sys2Proof.Machine

/-! ## WellFormed -/

theorem test_wf_jal_odd : Instr.wf (.jal 1 3) = false := by decide
theorem test_wf_branches_odd : Instr.wf (.beq 1 2 1) = false ∧ Instr.wf (.bne 1 2 1) = false
    ∧ Instr.wf (.blt 1 2 1) = false ∧ Instr.wf (.bge 1 2 1) = false ∧ Instr.wf (.bltu 1 2 1) = false
    ∧ Instr.wf (.bgeu 1 2 1) = false := by decide
theorem test_wf_cAddi4spn : Instr.wf (.cAddi4spn 0 2) = false ∧ Instr.wf (.cAddi4spn 0 0) = false := by decide
theorem test_wf_scaled : Instr.wf (.cLw 0 0 2) = false ∧ Instr.wf (.cSw 0 0 1) = false
    ∧ Instr.wf (.cLwsp 1 2) = false ∧ Instr.wf (.cSwsp 1 1) = false := by decide
theorem test_wf_cLwsp_x0 : Instr.wf (.cLwsp 0 4) = false := by decide
theorem test_wf_cAddi_x0 : Instr.wf (.cAddi 0 1) = false := by decide
theorem test_wf_compressed_jumps_odd : Instr.wf (.cJal 1) = false ∧ Instr.wf (.cJ 3) = false
    ∧ Instr.wf (.cBeqz 0 1) = false ∧ Instr.wf (.cBnez 0 5) = false := by decide
theorem test_wf_cAddi16sp : Instr.wf (.cAddi16sp 8) = false ∧ Instr.wf (.cAddi16sp 0) = false := by decide
theorem test_wf_cLui : Instr.wf (.cLui 2 1) = false ∧ Instr.wf (.cLui 5 0) = false := by decide
theorem test_wf_register_x0 : Instr.wf (.cJr 0) = false ∧ Instr.wf (.cJalr 0) = false ∧ Instr.wf (.cMv 5 0) = false
    ∧ Instr.wf (.cAdd 5 0) = false := by decide

/-! ## Words of the spec -/

theorem test_decode_lui : decodeTableWord 32 0x123452B7 = some (.lui 5 0x12345) := by decide
theorem test_decode_auipc : decodeTableWord 32 0x00001317 = some (.auipc 6 1) := by decide
theorem test_decode_addi : decodeTableWord 32 0xFFF00293 = some (.addi 5 0 0xFFF) := by decide
theorem test_decode_slti : decodeTableWord 32 0xFFF32293 = some (.slti 5 6 0xFFF) := by decide
theorem test_decode_sltiu : decodeTableWord 32 0xFFF33293 = some (.sltiu 5 6 0xFFF) := by decide
theorem test_decode_xori : decodeTableWord 32 0xFFF34293 = some (.xori 5 6 0xFFF) := by decide
theorem test_decode_ori : decodeTableWord 32 0x0F036293 = some (.ori 5 6 0x0F0) := by decide
theorem test_decode_andi : decodeTableWord 32 0x0FF37293 = some (.andi 5 6 0x0FF) := by decide
theorem test_decode_slli : decodeTableWord 32 0x01F31293 = some (.slli 5 6 31) := by decide
theorem test_decode_srli : decodeTableWord 32 0x00435293 = some (.srli 5 6 4) := by decide
theorem test_decode_srai : decodeTableWord 32 0x40435293 = some (.srai 5 6 4) := by decide
theorem test_decode_add : decodeTableWord 32 0x007302B3 = some (.add 5 6 7) := by decide
theorem test_decode_sub : decodeTableWord 32 0x407302B3 = some (.sub 5 6 7) := by decide
theorem test_decode_sll : decodeTableWord 32 0x007312B3 = some (.sll 5 6 7) := by decide
theorem test_decode_slt : decodeTableWord 32 0x007322B3 = some (.slt 5 6 7) := by decide
theorem test_decode_sltu : decodeTableWord 32 0x007332B3 = some (.sltu 5 6 7) := by decide
theorem test_decode_xor : decodeTableWord 32 0x007342B3 = some (.xor 5 6 7) := by decide
theorem test_decode_srl : decodeTableWord 32 0x007352B3 = some (.srl 5 6 7) := by decide
theorem test_decode_sra : decodeTableWord 32 0x407352B3 = some (.sra 5 6 7) := by decide
theorem test_decode_or : decodeTableWord 32 0x007362B3 = some (.or 5 6 7) := by decide
theorem test_decode_and : decodeTableWord 32 0x007372B3 = some (.and 5 6 7) := by decide
theorem test_decode_jal : decodeTableWord 32 0xFFDFF06F = some (.jal 0 0x1FFFFC) := by decide
theorem test_decode_jalr : decodeTableWord 32 0x000280E7 = some (.jalr 1 5 0) := by decide
theorem test_decode_beq : decodeTableWord 32 0x00628863 = some (.beq 5 6 16) := by decide
theorem test_decode_bne : decodeTableWord 32 0xFE629CE3 = some (.bne 5 6 0x1FF8) := by decide
theorem test_decode_blt : decodeTableWord 32 0x0062C463 = some (.blt 5 6 8) := by decide
theorem test_decode_bge : decodeTableWord 32 0x0062D463 = some (.bge 5 6 8) := by decide
theorem test_decode_bltu : decodeTableWord 32 0x0062E463 = some (.bltu 5 6 8) := by decide
theorem test_decode_bgeu : decodeTableWord 32 0x0062F463 = some (.bgeu 5 6 8) := by decide
theorem test_decode_lb : decodeTableWord 32 0xFFF30283 = some (.lb 5 6 0xFFF) := by decide
theorem test_decode_lh : decodeTableWord 32 0x00231283 = some (.lh 5 6 2) := by decide
theorem test_decode_lw : decodeTableWord 32 0x00432283 = some (.lw 5 6 4) := by decide
theorem test_decode_lbu : decodeTableWord 32 0x00034283 = some (.lbu 5 6 0) := by decide
theorem test_decode_lhu : decodeTableWord 32 0x00235283 = some (.lhu 5 6 2) := by decide
theorem test_decode_sb : decodeTableWord 32 0x005301A3 = some (.sb 6 5 3) := by decide
theorem test_decode_sh : decodeTableWord 32 0x00531123 = some (.sh 6 5 2) := by decide
theorem test_decode_sw : decodeTableWord 32 0xFE532E23 = some (.sw 6 5 0xFFC) := by decide
theorem test_decode_fence : decodeTableWord 32 0x0310000F = some (.fence 0 3 1 0 0) := by decide
theorem test_decode_fenceI : decodeTableWord 32 0x0000100F = some (.fenceI 0 0 0) := by decide
theorem test_decode_ecall : decodeTableWord 32 0x00000073 = some .ecall := by decide
theorem test_decode_ebreak : decodeTableWord 32 0x00100073 = some .ebreak := by decide
theorem test_decode_mret : decodeTableWord 32 0x30200073 = some .mret := by decide
theorem test_decode_wfi : decodeTableWord 32 0x10500073 = some .wfi := by decide
theorem test_decode_csrrw : decodeTableWord 32 0x340312F3 = some (.csrrw 5 6 0x340) := by decide
theorem test_decode_csrrs : decodeTableWord 32 0x300022F3 = some (.csrrs 5 0 0x300) := by decide
theorem test_decode_csrrc : decodeTableWord 32 0x3002B073 = some (.csrrc 0 5 0x300) := by decide
theorem test_decode_csrrwi : decodeTableWord 32 0x3402D073 = some (.csrrwi 0 5 0x340) := by decide
theorem test_decode_csrrsi : decodeTableWord 32 0x30046073 = some (.csrrsi 0 8 0x300) := by decide
theorem test_decode_csrrci : decodeTableWord 32 0x30047073 = some (.csrrci 0 8 0x300) := by decide
theorem test_decode_mul : decodeTableWord 32 0x027302B3 = some (.mul 5 6 7) := by decide
theorem test_decode_mulh : decodeTableWord 32 0x027312B3 = some (.mulh 5 6 7) := by decide
theorem test_decode_mulhsu : decodeTableWord 32 0x027322B3 = some (.mulhsu 5 6 7) := by decide
theorem test_decode_mulhu : decodeTableWord 32 0x027332B3 = some (.mulhu 5 6 7) := by decide
theorem test_decode_div : decodeTableWord 32 0x027342B3 = some (.div 5 6 7) := by decide
theorem test_decode_divu : decodeTableWord 32 0x027352B3 = some (.divu 5 6 7) := by decide
theorem test_decode_rem : decodeTableWord 32 0x027362B3 = some (.rem 5 6 7) := by decide
theorem test_decode_remu : decodeTableWord 32 0x027372B3 = some (.remu 5 6 7) := by decide
theorem test_decode_lrW : decodeTableWord 32 0x140322AF = some (.lrW 5 6 1 0) := by decide
theorem test_decode_scW : decodeTableWord 32 0x1A7322AF = some (.scW 5 6 7 0 1) := by decide
theorem test_decode_amoswapW : decodeTableWord 32 0x087322AF = some (.amoswapW 5 6 7 0 0) := by decide
theorem test_decode_amoaddW : decodeTableWord 32 0x067322AF = some (.amoaddW 5 6 7 1 1) := by decide
theorem test_decode_amoxorW : decodeTableWord 32 0x207322AF = some (.amoxorW 5 6 7 0 0) := by decide
theorem test_decode_amoandW : decodeTableWord 32 0x607322AF = some (.amoandW 5 6 7 0 0) := by decide
theorem test_decode_amoorW : decodeTableWord 32 0x407322AF = some (.amoorW 5 6 7 0 0) := by decide
theorem test_decode_amominW : decodeTableWord 32 0x807322AF = some (.amominW 5 6 7 0 0) := by decide
theorem test_decode_amomaxW : decodeTableWord 32 0xA07322AF = some (.amomaxW 5 6 7 0 0) := by decide
theorem test_decode_amominuW : decodeTableWord 32 0xC07322AF = some (.amominuW 5 6 7 0 0) := by decide
theorem test_decode_amomaxuW : decodeTableWord 32 0xE07322AF = some (.amomaxuW 5 6 7 0 0) := by decide
theorem test_decode_cAddi4spn : decodeTableWord 16 0x1FFC = some (.cAddi4spn 7 1020) := by decide
theorem test_decode_cLw : decodeTableWord 16 0x5FE0 = some (.cLw 0 7 124) := by decide
theorem test_decode_cSw : decodeTableWord 16 0xC144 = some (.cSw 2 1 4) := by decide
theorem test_decode_cNop : decodeTableWord 16 0x0001 = some (.cNop 0) := by decide
theorem test_decode_cAddi : decodeTableWord 16 0x12FD = some (.cAddi 5 63) := by decide
theorem test_decode_cJal : decodeTableWord 16 0x3001 = some (.cJal 0x800) := by decide
theorem test_decode_cLi : decodeTableWord 16 0x5281 = some (.cLi 5 32) := by decide
theorem test_decode_cAddi16sp : decodeTableWord 16 0x7139 = some (.cAddi16sp 0x3C0) := by decide
theorem test_decode_cLui : decodeTableWord 16 0x72FD = some (.cLui 5 63) := by decide
theorem test_decode_cSrli : decodeTableWord 16 0x8011 = some (.cSrli 0 4) := by decide
theorem test_decode_cSrai : decodeTableWord 16 0x8411 = some (.cSrai 0 4) := by decide
theorem test_decode_cAndi : decodeTableWord 16 0x88BD = some (.cAndi 1 15) := by decide
theorem test_decode_cSub : decodeTableWord 16 0x8C05 = some (.cSub 0 1) := by decide
theorem test_decode_cXor : decodeTableWord 16 0x8C25 = some (.cXor 0 1) := by decide
theorem test_decode_cOr : decodeTableWord 16 0x8C45 = some (.cOr 0 1) := by decide
theorem test_decode_cAnd : decodeTableWord 16 0x8C65 = some (.cAnd 0 1) := by decide
theorem test_decode_cJ : decodeTableWord 16 0xBFF5 = some (.cJ 0xFFC) := by decide
theorem test_decode_cBeqz : decodeTableWord 16 0xC401 = some (.cBeqz 0 8) := by decide
theorem test_decode_cBnez : decodeTableWord 16 0xFC65 = some (.cBnez 0 0x1F8) := by decide
theorem test_decode_cSlli : decodeTableWord 16 0x02FE = some (.cSlli 5 31) := by decide
theorem test_decode_cLwsp : decodeTableWord 16 0x50FE = some (.cLwsp 1 252) := by decide
theorem test_decode_cJr : decodeTableWord 16 0x8082 = some (.cJr 1) := by decide
theorem test_decode_cMv : decodeTableWord 16 0x829A = some (.cMv 5 6) := by decide
theorem test_decode_cEbreak : decodeTableWord 16 0x9002 = some .cEbreak := by decide
theorem test_decode_cJalr : decodeTableWord 16 0x9282 = some (.cJalr 5) := by decide
theorem test_decode_cAdd : decodeTableWord 16 0x929A = some (.cAdd 5 6) := by decide
theorem test_decode_cSwsp : decodeTableWord 16 0xDF86 = some (.cSwsp 1 252) := by decide

/-- Words that no row accepts: all zeros, the long format, a shift with a wrong funct7, fcvt, sret, c.addi16sp 0. -/
theorem test_decode_refuses : decodeTableWord 16 0 = none ∧ decodeTableWord 32 0xFFFFFFFF = none
    ∧ decodeTableWord 32 0x02031293 = none ∧ decodeTableWord 32 0x10200073 = none ∧ decodeTableWord 16 0x6101 = none
    ∧ decodeTableWord 16 0x8002 = none := by decide
/-! ## Single steps, expected results from 95_test_vectors.md section 2 -/

/-- The start state of the vectors: pc = 0x1000, trap entry 0x800, ECLIC mode, the word `w` at pc. -/
def start (w : Word) (regs : List (Reg × Word)) : State :=
  regs.foldl (fun s p => setReg s p.1 p.2)
    (placeWord w { State.reset with pc := 0x1000#32, csr := { CsrFile.reset with mtvec := 0x803#32 } })

/-- The start state with the two words of section 2.3 at 0x2000 and a third register value. -/
def startMem (w : Word) (regs : List (Reg × Word)) : State :=
  { start w regs with
    mem := (start w regs).mem ++ [(0x2000, 0xBB#8), (0x2001, 0xAA#8), (0x2002, 0x99#8), (0x2003, 0x88#8),
      (0x2004, 0x44#8), (0x2005, 0x33#8), (0x2006, 0x22#8), (0x2007, 0x11#8)] }

/-- What `f` says of the next state, if there is one. -/
def after {α : Type} (f : State → α) (s : State) : Option α :=
  match step s with
  | .next t => some (f t)
  | _ => none

/-- What an outcome is refused with. -/
def refusalOf : Out → Option Refusal
  | .refused r => some r
  | _ => none

/-- pc, mcause and mtval. -/
def trapView (t : State) : Word × Word × Word := (t.pc, mcauseWord t.csr, t.csr.mtval)

theorem test_add_wraps : after (getReg · 10) (start 0x00C58533 [(11, 0x7FFFFFFF), (12, 1)]) = some 0x80000000 := by decide
theorem test_sub : after (getReg · 10) (start 0x40C58533 [(11, 0), (12, 1)]) = some 0xFFFFFFFF := by decide
theorem test_slt : after (getReg · 10) (start 0x00C5A533 [(11, 0x80000000), (12, 0x7FFFFFFF)]) = some 1 := by decide
theorem test_sltiu_sign_extends : after (getReg · 10) (start 0xFFF5B513 [(11, 0xFFFFFFFE)]) = some 1 := by decide
theorem test_ori : after (getReg · 10) (start 0x8005E513 [(11, 0xF)]) = some 0xFFFFF80F := by decide
theorem test_sll_low_five_bits : after (getReg · 10) (start 0x00C59533 [(11, 1), (12, 0x20)]) = some 1 := by decide
theorem test_sra : after (getReg · 10) (start 0x40C5D533 [(11, 0x80000000), (12, 0x1F)]) = some 0xFFFFFFFF := by decide
theorem test_srli : after (getReg · 10) (start 0x0045D513 [(11, 0xF0000000)]) = some 0xF000000 := by decide
theorem test_auipc_wraps : after (getReg · 10) (start 0xFFFFF517 []) = some 0 := by decide
theorem test_addi_x0 : after (getReg · 0) (start 0x00558013 [(11, 1)]) = some 0 := by decide
theorem test_illegal_shift : after trapView (start 0x02059513 []) = some (0x800, 0x30000002, 0x02059513) := by decide

theorem test_jal_back : after (fun t => (getReg t 1, t.pc)) (start 0x800000EF []) = some (0x1004, 0xFFF01000) := by decide
theorem test_jalr_own_link : after (fun t => (getReg t 1, t.pc)) (start 0x004080E7 [(1, 0x3000)])
    = some (0x1004, 0x3004) := by decide
theorem test_jalr_bit0 : after State.pc (start 0xFFF580E7 [(11, 0x2004)]) = some 0x2002 := by decide
theorem test_bne_back : after State.pc (start 0xFEC598E3 [(11, 5), (12, 6)]) = some 0xFF0 := by decide
theorem test_bltu_not_taken : after State.pc (start 0x00C5E463 [(11, 0xFFFFFFFF), (12, 0)]) = some 0x1004 := by decide
theorem test_bge_equal : after State.pc (start 0x00C5D463 [(11, 3), (12, 3)]) = some 0x1008 := by decide

theorem test_lw : after (getReg · 10) (startMem 0xFFC5A503 [(11, 0x2008)]) = some 0x11223344 := by decide
theorem test_lh : after (getReg · 10) (startMem 0x00259503 [(11, 0x2000)]) = some 0xFFFF8899 := by decide
theorem test_lbu : after (getReg · 10) (startMem 0x0015C503 [(11, 0x2004)]) = some 0x33 := by decide
theorem test_lw_misaligned : after trapView (startMem 0x0025A503 [(11, 0x2000)])
    = some (0x800, 0x30000004, 0x2002) := by decide
theorem test_c_sw : after (fun t => (Memory.read t.mem 0x2004, Memory.read t.mem 0x2007))
    (startMem 0x0000C144 [(10, 0x2000), (9, 0xDEADBEEF)]) = some (0xEF, 0xDE) := by decide
theorem test_c_swsp_x0 : after (fun t => Memory.read t.mem 0x2000) (startMem 0x0000C002 [(2, 0x2000)]) = some 0 := by decide
theorem test_c_swsp_misaligned : after trapView (start 0x0000DF86 [(2, 0x1F06), (1, 1)])
    = some (0x800, 0x30000006, 0x2002) := by decide
theorem test_c_lwsp : after (getReg · 1) (startMem 0x000050FE [(2, 0x1F04)]) = some 0x8899AABB := by decide

theorem test_mulhsu : after (getReg · 10) (start 0x02C5A533 [(11, 0x9ABCDEF0), (12, 0x12345678)])
    = some 0xF8CC93D6 := by decide
theorem test_mulh : after (getReg · 10) (start 0x02C59533 [(11, 0x80000000), (12, 0x7FFFFFFF)])
    = some 0xC0000000 := by decide
theorem test_div_toward_zero : after (getReg · 10) (start 0x02C5C533 [(11, 0xFFFFFFEC), (12, 6)])
    = some 0xFFFFFFFD := by decide
theorem test_div_overflow : after (getReg · 10) (start 0x02C5C533 [(11, 0x80000000), (12, 0xFFFFFFFF)])
    = some 0x80000000 := by decide
theorem test_rem_by_zero : after (getReg · 10) (start 0x02C5E533 [(11, 7), (12, 0)]) = some 7 := by decide
theorem test_divu : after (getReg · 10) (start 0x02C5D533 [(11, 0xFFFFFFEC), (12, 6)]) = some 0x2AAAAAA7 := by decide

theorem test_lr : after (fun t => (getReg t 10, t.reservation)) (startMem 0x1005A52F [(11, 0x2004)])
    = some (0x11223344, some 0x2004) := by decide
theorem test_sc_other_word : after (fun t => (getReg t 10, Memory.read t.mem 0x2000, t.reservation))
    { startMem 0x18C5A52F [(11, 0x2000), (12, 9)] with reservation := some 0x2004 } = some (1, 0xBB, none) := by decide
theorem test_sc : after (fun t => (getReg t 10, Memory.read t.mem 0x2000, t.reservation))
    { startMem 0x18C5A52F [(11, 0x2000), (12, 9)] with reservation := some 0x2000 } = some (0, 9, none) := by decide
theorem test_amoswap_one_register : after (fun t => (getReg t 11, Memory.read t.mem 0x2001))
    (startMem 0x08B5A5AF [(11, 0x2000)]) = some (0x8899AABB, 0x20) := by decide
theorem test_amoadd_misaligned : after trapView (start 0x00C5A52F [(11, 0x2003), (12, 9)])
    = some (0x800, 0x30000006, 0x2003) := by decide

theorem test_c_lui_negative : after (getReg · 5) (start 0x7281 []) = some 0xFFFE0000 := by decide
theorem test_c_addi16sp : after (fun t => (getReg t 2, t.pc)) (start 0x617D [(2, 0x8000)]) = some (0x81F0, 0x1002) := by decide
theorem test_c_jalr_own_link : after (fun t => (getReg t 1, t.pc)) (start 0x9082 [(1, 0x2000)])
    = some (0x1002, 0x2000) := by decide
theorem test_c_bnez_back : after State.pc (start 0xFC65 [(8, 1)]) = some 0xFF8 := by decide
theorem test_c_sub : after (getReg · 8) (start 0x8C05 [(8, 5), (9, 7)]) = some 0xFFFFFFFE := by decide
theorem test_c_srai : after (getReg · 8) (start 0x8411 [(8, 0x80000010)]) = some 0xF8000001 := by decide
theorem test_c_ebreak : after (fun t => (t.pc, t.csr.mepc, t.csr.causeExccode)) (start 0x9002 [])
    = some (0x800, 0x1000, 3) := by decide

theorem test_csrrc : after (fun t => (getReg t 5, t.csr.mscratch)) (let s := start 0x340332F3 [(6, 0x0F0F0000)]
    { s with csr := { s.csr with mscratch := 0x11111111 } }) = some (0x11111111, 0x10101111) := by decide
theorem test_csrrw_mcause : after (fun t => (mcauseWord t.csr, mstatusWord t.csr false)) (start 0x34229073 [(5, 0xFFFFFFFF)])
    = some (0xF8FF0FFF, 0x1880) := by decide
theorem test_csrrw_read_only : after trapView (start 0x34629073 []) = some (0x800, 0x30000002, 0x34629073) := by decide
theorem test_pushmcause : after (fun t => Memory.readLE t.mem 0x7FF4 4) (let s := start 0x7EE0D073 [(2, 0x7FF0)]
    { s with csr := loadCause { s.csr with mpp := 3, mpie := true } 0xB8120007 }) = some 0xB8120007 := by decide
theorem test_mscratchcswl_swap : after (fun t => (getReg t 2, t.csr.mscratch)) (let s := start 0x34911173 [(2, 0x7000)]
    { s with csr := { s.csr with mscratch := 0x6000, mil := 0x7F } }) = some (0x6000, 0x7000) := by decide

/-- MRET3. -/
theorem test_mret : after (fun t => (t.pc, t.priv, mcauseWord t.csr, msubmWord t.csr, msavestatusWord t.csr))
    (let s := start 0x30200073 []
     { s with csr := { s.csr with
        mepc := 0x1038, mpie := true, causeExccode := 8, typ := .exception
        save1 := { epc := 0x1111, cause := 0xB85F0007, mpie := true, mpp := 3, ptyp := .interrupt }
        save2 := { epc := 0x2222, cause := 0x3000000B, mpie := true, mpp := 0, ptyp := .interrupt } } })
    = some (0x1038, .user, 0xB85F0007, 0x100, 0x4141) := by decide

/-- Source 19 enabled with ctl 0x5F and its input high, nlbits 4, interrupts on (INT3, INT4). -/
def interrupted (shv edge : Bool) : State :=
  let s := start 0x13 []
  { s with
    csr := { s.csr with mie := true, mtvt := 0x400 }
    eclic := { s.eclic with
      nlbits := 4
      sources := updateSource (fun x => { x with ie := true, shv := shv, edge := edge, ctl := 0x5F }) 19 s.eclic.sources }
    envRest := { EnvSample.quiet with high := [19] } }

/-- INT3: a vectored entry, M[0x44C] = 0xB01, clears the pending bit of a rising-edge source. -/
theorem test_vectored_entry : after (fun t => (t.pc, mcauseWord t.csr, t.csr.mil, (t.eclic.sources[19]?).map Source.ip))
    (let s := interrupted true true
     { s with mem := [(0x44C, 0x01#8), (0x44D, 0x0B#8)] }) = some (0xB00, 0xB8000013, 0x5F, some false) := by decide

/-- INT2: a non-vectored entry keeps it. -/
theorem test_nonvectored_entry : after (fun t => (t.pc, t.csr.mepc, (t.eclic.sources[19]?).map Source.ip))
    (interrupted false true) = some (0x800, 0x1000, some true) := by decide

/-- NMI2. -/
theorem test_nmi : after (fun t => (t.pc, mcauseWord t.csr, msubmWord t.csr)) (let s := start 0x13 []
    { s with csr := { s.csr with mie := true, nmiCauseFff := true }, envRest := { EnvSample.quiet with nmi := true } })
    = some (0x800, 0x38000FFF, 0xC0) := by decide

/-- 2.10: cliccfg after 0xFF; level and priority of 0xA7 and 0x5F. -/
theorem test_cliccfg : eclicReadByte Config.example (eclicWriteByte Config.example State.reset.eclic 0 0xFF) 0 = 0x1F := by
  decide
theorem test_levels : levelOf { nlbits := 4, mth := 0, sources := [] } 0xA7 = 0xAF
    ∧ priorityOf { nlbits := 4, mth := 0, sources := [] } 0xA7 = 0x7F
    ∧ levelOf { nlbits := 2, mth := 0, sources := [] } 0x5F = 0x7F
    ∧ priorityOf { nlbits := 2, mth := 0, sources := [] } 0x5F = 0x7F := by decide

/-- 2.11: a word store to mtimecmp_lo and the compare. -/
theorem test_timer_store : after (fun t => t.timer.mtimecmp) (start 0x00C5A023 [(11, 0x40000008), (12, 3)])
    = some 0xFFFFFFFF00000003 := by decide
theorem test_timer_byte_refused : refusalOf (step (start 0x00058503 [(11, 0x40000000)])) = some .timerAccessSize := by
  decide

/-! ## Witnesses: states that meet the hypotheses of the statements -/

/-- All of RAM, for the witnesses. -/
theorem allRam_example (a : Word) (n : Nat) (h : a.toNat + n ≤ 0x10000) (h0 : a.toNat < 0x10000 := by decide) :
    AllRam Config.example a n := by
  refine ⟨?_, fun k hk => ?_⟩
  · have h1 : (a - 0x40000000#32).toNat = 2 ^ 32 - 0x40000000 + a.toNat := by bv_omega
    have h2 : (a - 0x40010000#32).toNat = 2 ^ 32 - 0x40010000 + a.toNat := by bv_omega
    simp only [placeOf, Config.example, h1, h2]
    rw [if_neg (by omega), if_neg (by omega)]
  · have : a.toNat + k < 65536 := by omega
    simp [isRam, regionAt, Region.has, Config.example, this]

theorem allMapped_example (a : Word) (n : Nat) (h : a.toNat + n ≤ 0x10000) (h0 : a.toNat < 0x10000 := by decide) :
    AllMapped Config.example a n := by
  refine ⟨(allRam_example a n h h0).1, fun k hk => ?_⟩
  have : a.toNat + k < 65536 := by omega
  simp [isMapped, regionAt, Region.has, Config.example, this]

/-- Reset with x1 to x31 as given. -/
def withRegs (regs : List (Reg × Word)) : State := regs.foldl (fun s p => setReg s p.1 p.2) State.reset

/-- Reset in User Mode. -/
def inUser : State := { State.reset with priv := .user }

theorem witness_ResetMeetsInvariant : Config.example.wf = true := by decide

/-- The greatest and the least of the parameters. -/
theorem witness_ResetMeetsInvariant_bounds :
    Config.wf { Config.example with numInterrupt := 4096, clicIntCtlBits := 8, hasUmode := false } = true
    ∧ Config.wf { Config.example with numInterrupt := 19, clicIntCtlBits := 2, resetVector := 0xFFFFFFFE } = true
    ∧ Config.wf { Config.example with eclicBase := 0xFFFF0001 } = true := by
  decide

theorem reset_inv : State.reset.Inv :=
  ⟨by decide, by decide, by decide, ⟨by decide, by decide, by decide, by decide, by decide, by decide, by decide,
    by decide, by decide⟩, ⟨by decide, by decide⟩, by decide⟩

theorem witness_StepKeepsInvariant : State.reset.Inv ∧ ∃ t, step State.reset = .next t := ⟨reset_inv, _, rfl⟩

theorem witness_ResetEventAtBoundary :
    (nextSample { State.reset with envRest := { EnvSample.quiet with reset := true } }).reset = true := by decide

/-- 70 R600: mcause keeps its own fields over a reset. -/
theorem test_reset_keeps_mcause : after (fun t => (t.csr.causeInterrupt, t.csr.causeExccode, t.csr.mtvec))
    { State.reset with
      csr := { CsrFile.reset with causeInterrupt := true, causeExccode := 19, mtvec := 0x803 }
      envRest := { EnvSample.quiet with reset := true } } = some (true, 19, CsrFile.reset.mtvec) := by decide

theorem witness_DecodeOfEncode : Instr.wf (.csrrw 31 31 0xFFF) = true ∧ Instr.wf (.cLui 31 63) = true
    ∧ Instr.wf (.jal 31 0x100000) = true ∧ Instr.wf (.cAddi4spn 7 1020) = true ∧ Instr.wf .mret = true := by decide

theorem witness_EncodeOfDecode : (decodeEncoding (.half 0x8082)).toOption = some (.cJr 1)
    ∧ (decodeEncoding (.full 0xFFFFFFB7)).toOption = some (.lui 31 0xFFFFF) := by decide

/-! ### The step -/

/-- A sleeping hart that an event wakes runs the instruction after its wfi. -/
def woken : State :=
  { start 0x00C58533 [] with
    sleeping := true, csr := { CsrFile.reset with wfe := true }, envRest := { EnvSample.quiet with rxEvt := true } }

/-- The state that goes on to its instruction. -/
def goingOn (s : State) : State := { sample s with sleeping := false }

/-- Stores next to the word at 0x1000 and none in it. -/
def storedBeside (s : State) : State := { s with storeLog := [[(0xFFF, 1#8)], [(0x1004, 2#8)]] }

/-- A parcel of memory. -/
theorem parcelAt_memory {s : State} {a : Word} (h1 : placeOf s.cfg a = .memory) (h2 : readable s.cfg a.toNat 2 = true)
    (h3 : ∀ cells ∈ s.storeLog, ∀ cell ∈ cells, cell.1 ≠ a.toNat ∧ cell.1 ≠ a.toNat + 1) : ParcelAt s a (halfAt s a) :=
  .inl ⟨h1, h2, h3, rfl⟩

/-- A 32-bit instruction, by a hart that wakes, and a 16-bit one, after stores beside them. -/
theorem witness_StepRunsDecoded :
    (GoesOn (storedBeside woken) (goingOn (storedBeside woken))
      ∧ WordAtPc (goingOn (storedBeside woken)) (.full 0x00C58533)
      ∧ (decode (Encoding.full 0x00C58533).bytes).toOption = some (.add 10 11 12, []))
    ∧ GoesOn (storedBeside (start 0x8082 [])) (goingOn (storedBeside (start 0x8082 [])))
    ∧ WordAtPc (goingOn (storedBeside (start 0x8082 []))) (.half 0x8082)
    ∧ (decode (Encoding.half 0x8082).bytes).toOption = some (.cJr 1, []) :=
  ⟨⟨⟨rfl, by decide⟩, ⟨by decide, parcelAt_memory (by decide) (by decide) (by decide),
      parcelAt_memory (by decide) (by decide) (by decide)⟩, by decide⟩,
    ⟨rfl, by decide⟩, ⟨by decide, parcelAt_memory (by decide) (by decide) (by decide)⟩, by decide⟩

/-- At the block of source 19, with clicintip 1 and clicintie 0: c.nop. -/
theorem witness_StepRunsDecoded_eclic : ∃ s : State, GoesOn s (goingOn s) ∧ WordAtPc (goingOn s) (.half 0x0001)
    ∧ (decode (Encoding.half 0x0001).bytes).toOption = some (.cNop 0, []) :=
  ⟨{ State.reset with
      pc := 0x4001104C
      eclic := { State.reset.eclic with
        sources := updateSource (fun x => { x with ip := true, edge := true }) 19 State.reset.eclic.sources } },
    ⟨rfl, by decide⟩, ⟨by decide, .inr ⟨0x104C, by decide, by decide⟩⟩, by decide⟩

/-- An NMI edge on a sleeping hart, with an interrupt requested as well. -/
def nmiArrives (fff : Bool) : State :=
  let s := interrupted true true
  { s with
    sleeping := true, csr := { s.csr with nmiCauseFff := fff }
    envRest := { EnvSample.quiet with nmi := true, high := [19] } }

theorem witness_NmiTakenFirst (fff : Bool) : (nextSample (nmiArrives fff)).reset = false
    ∧ (sample (nmiArrives fff)).nmiPending = true ∧ (sample (nmiArrives fff)).csr.typ ≠ .nmi
    ∧ (takeableInterrupt (sample (nmiArrives fff))).isSome = true := by cases fff <;> decide

/-- The candidate of `interrupted`. -/
def winner (shv : Bool) : Candidate := { id := 19, level := 0x5F, priority := 0xFF, shv := shv }

theorem witness_NonVectoredEntry : (nextSample (interrupted false true)).reset = false
    ∧ nmiTaken (sample (interrupted false true)) = false
    ∧ eclicRequest (sample (interrupted false true)).eclic = some (winner false)
    ∧ (sample (interrupted false true)).csr.mil.toNat < (winner false).level.toNat
    ∧ (sample (interrupted false true)).csr.mie = true
    ∧ (sample (interrupted false true)).csr.mtvec.extractLsb' 0 6 = 3#6 := by decide

/-- In User Mode with MIE 0, one level above MIL. -/
theorem witness_NonVectoredEntry_user : ∃ s : State, (nextSample s).reset = false ∧ nmiTaken (sample s) = false
    ∧ eclicRequest (sample s).eclic = some (winner false) ∧ (sample s).csr.mil.toNat + 1 = (winner false).level.toNat
    ∧ (sample s).csr.mie = false ∧ (sample s).priv = .user ∧ (sample s).csr.mtvec.extractLsb' 0 6 = 3#6 :=
  ⟨{ interrupted false true with
      priv := .user, csr := { (interrupted false true).csr with mie := false, mil := 0x5E } }, by decide⟩

theorem witness_VectoredEntry (edge : Bool) : ((nextSample (interrupted true edge)).reset = false
    ∧ nmiTaken (sample (interrupted true edge)) = false
    ∧ eclicRequest (sample (interrupted true edge)).eclic = some (winner true)
    ∧ (sample (interrupted true edge)).csr.mil.toNat < (winner true).level.toNat
    ∧ (sample (interrupted true edge)).csr.mie = true
    ∧ (sample (interrupted true edge)).csr.mtvec.extractLsb' 0 6 = 3#6)
    ∧ AllMapped (sample (interrupted true edge)).cfg
        ((sample (interrupted true edge)).csr.mtvt + BitVec.ofNat 32 (4 * (winner true).id)) 4 :=
  ⟨by cases edge <;> decide, by cases edge <;> exact allMapped_example 0x44C 4 (by decide)⟩

/-- INT5: mtvt = 0x20000. -/
theorem witness_VectorReadFault : ∃ s : State, (nextSample s).reset = false ∧ nmiTaken (sample s) = false
    ∧ eclicRequest (sample s).eclic = some (winner true) ∧ (sample s).csr.mil.toNat < (winner true).level.toNat
    ∧ (sample s).csr.mie = true ∧ (sample s).csr.mtvec.extractLsb' 0 6 = 3#6
    ∧ placeOf (sample s).cfg ((sample s).csr.mtvt + BitVec.ofNat 32 (4 * 19)) = .memory
    ∧ readable (sample s).cfg ((sample s).csr.mtvt + BitVec.ofNat 32 (4 * 19)).toNat 4 = false :=
  ⟨{ interrupted true true with csr := { (interrupted true true).csr with mtvt := 0x20000 } }, by decide⟩

theorem witness_DefaultModeStops : ∃ s : State, (nextSample s).reset = false ∧ nmiTaken (sample s) = false
    ∧ eclicRequest (sample s).eclic = some (winner true) ∧ (sample s).csr.mil.toNat < (winner true).level.toNat
    ∧ (sample s).csr.mie = true ∧ (sample s).csr.mtvec.extractLsb' 0 6 ≠ 3#6 :=
  ⟨{ interrupted true true with csr := { (interrupted true true).csr with mtvec := 0x800 } }, by decide⟩

/-- The hypotheses of SleepingStep. -/
def staysUntrapped (s : State) : Prop :=
  (nextSample s).reset = false ∧ s.sleeping = true
    ∧ ((sample s).nmiPending = false ∨ (sample s).csr.typ = .nmi) ∧ takeableInterrupt (sample s) = none

/-- `interrupted`, asleep, with the fields that decide whether it wakes. -/
def asleep (mie wfe rx : Bool) (priv : Priv) (mth : Byte) : State :=
  let s := interrupted false true
  { s with
    sleeping := true, priv := priv, csr := { s.csr with mie := mie, wfe := wfe }
    eclic := { s.eclic with mth := mth }, envRest := { EnvSample.quiet with high := [19], rxEvt := rx } }

/-- WFE 0 and a request one level above mth; WFE 1 and the event. -/
theorem witness_SleepingStep_wakes :
    staysUntrapped (asleep false false false .machine 0x5E)
    ∧ (eclicRequest (sample (asleep false false false .machine 0x5E)).eclic).isSome = true
    ∧ staysUntrapped (asleep false true true .machine 0x5F)
    ∧ (sample (asleep false true true .machine 0x5F)).rxEvt = true := by
  unfold staysUntrapped; decide

/-- MIE 1; User Mode; WFE 0 and the request not above mth; WFE 1 without the event; an NMI pending in the NMI sub-mode. -/
theorem witness_SleepingStep_stays :
    staysUntrapped (asleep true false true .machine 0x5F) ∧ staysUntrapped (asleep false true true .user 0x5F)
    ∧ staysUntrapped (asleep false false true .machine 0x5F)
    ∧ eclicRequest (sample (asleep false false true .machine 0x5F)).eclic = none
    ∧ staysUntrapped (asleep false true false .machine 0)
    ∧ staysUntrapped { asleep false false true .machine 0x5F with
        nmiPending := true, csr := { CsrFile.reset with typ := .nmi } } := by
  unfold staysUntrapped; decide

/-- The last parcel of RAM, the start of a 32-bit instruction. -/
def lastParcel : State := { State.reset with pc := 0xFFFE, mem := [(0xFFFE, 0x13#8)] }

/-- The clauses of FetchExceptions: an address the platform has not (EXC3), the last parcel of RAM (EXC4), a reserved
parcel, a reserved word. -/
theorem witness_FetchExceptions :
    (∃ s : State, GoesOn s (goingOn s) ∧ placeOf (goingOn s).cfg (goingOn s).pc = .memory
      ∧ readable (goingOn s).cfg (goingOn s).pc.toNat 2 = false)
    ∧ (GoesOn lastParcel (goingOn lastParcel) ∧ ParcelAt (goingOn lastParcel) 0xFFFE 0x0013
      ∧ (0x0013#16).extractLsb' 0 2 = 3#2 ∧ placeOf Config.example 0x10000 = .memory
      ∧ readable Config.example 0x10000 2 = false)
    ∧ (GoesOn (storedBeside (start 0x8002 [])) (goingOn (storedBeside (start 0x8002 [])))
      ∧ ParcelAt (goingOn (storedBeside (start 0x8002 []))) 0x1000 0x8002 ∧ (0x8002#16).extractLsb' 0 2 ≠ 3#2
      ∧ decode16 0x8002 = none)
    ∧ (GoesOn (storedBeside (start 0x02059513 [])) (goingOn (storedBeside (start 0x02059513 [])))
      ∧ ParcelAt (goingOn (storedBeside (start 0x02059513 []))) 0x1000 0x9513
      ∧ ParcelAt (goingOn (storedBeside (start 0x02059513 []))) 0x1002 0x0205 ∧ (0x9513#16).extractLsb' 0 2 = 3#2
      ∧ decode32 (0x0205#16 ++ 0x9513#16) = none) :=
  ⟨⟨{ State.reset with pc := 0x20000 }, ⟨rfl, by decide⟩, by decide⟩,
    ⟨⟨rfl, by decide⟩, parcelAt_memory (by decide) (by decide) (by decide), by decide⟩,
    ⟨⟨rfl, by decide⟩, parcelAt_memory (by decide) (by decide) (by decide), by decide⟩,
    ⟨⟨rfl, by decide⟩, parcelAt_memory (by decide) (by decide) (by decide),
      parcelAt_memory (by decide) (by decide) (by decide), by decide⟩⟩

/-- The first parcel in the TIMER window, and the second. -/
theorem witness_FetchExceptions_timer :
    (∃ s : State, GoesOn s (goingOn s) ∧ placeOf (goingOn s).cfg (goingOn s).pc = .timer 0xFFE)
    ∧ ∃ s : State, GoesOn s (goingOn s) ∧ ParcelAt (goingOn s) 0x3FFFFFFE 0x0013 ∧ (goingOn s).pc = 0x3FFFFFFE
      ∧ (0x0013#16).extractLsb' 0 2 = 3#2 ∧ placeOf (goingOn s).cfg (0x3FFFFFFE + 2) = .timer 0 :=
  ⟨⟨{ State.reset with pc := 0x40000FFE }, ⟨rfl, by decide⟩, by decide⟩,
    ⟨{ State.reset with
        cfg := { Config.example with memoryMap := [{ base := 0x3FFF0000, size := 0x10000, kind := .ram }] }
        pc := 0x3FFFFFFE, mem := [(0x3FFFFFFE, 0x13#8)] },
      ⟨rfl, by decide⟩, parcelAt_memory (by decide) (by decide) (by decide), by decide⟩⟩

/-! ### Integer -/

theorem witness_DivisionLaw : (10 : Reg) ≠ 0#5 ∧ getReg (withRegs [(11, 0x80000000), (12, 0xFFFFFFFF)]) 12 ≠ 0#32 := by
  decide

/-! ### Loads, stores, fences -/

/-- The last byte, halfword and word of RAM. -/
theorem witness_LoadResults : AllMapped Config.example 0xFFFF 1 ∧ AllMapped Config.example 0xFFFE 2
    ∧ AllMapped Config.example 0xFFFC 4 ∧ (0xFFFE#32).toNat % 2 = 0 ∧ (0xFFFC#32).toNat % 4 = 0 :=
  ⟨allMapped_example _ _ (by decide), allMapped_example _ _ (by decide), allMapped_example _ _ (by decide), by decide,
    by decide⟩
theorem witness_StoreResults : State.reset.mem.wf = true ∧ AllRam Config.example 0xFFFF 1
    ∧ AllRam Config.example 0xFFFE 2 ∧ AllRam Config.example 0xFFFC 4
    ∧ getReg (withRegs [(11, 0xFFFF)]) 11 + (0xFFD#12 : BitVec 12).signExtend 32 = 0xFFFC#32 :=
  ⟨by decide, allRam_example _ _ (by decide), allRam_example _ _ (by decide), allRam_example _ _ (by decide), by decide⟩
theorem witness_CompressedLoadsAndStores : State.reset.mem.wf = true
    ∧ getReg (withRegs [(10, 0xFF80)]) (0b01#2 ++ 2#3) + (124#7).setWidth 32 = 0xFFFC#32
    ∧ getReg (withRegs [(2, 0xFF00)]) 2 + (252#8).setWidth 32 = 0xFFFC#32
    ∧ AllRam Config.example 0xFFFC 4 ∧ AllMapped Config.example 0xFFFC 4 :=
  ⟨by decide, by decide, by decide, allRam_example _ _ (by decide), allMapped_example _ _ (by decide)⟩
theorem witness_MisalignedReads :
    (getReg (withRegs [(11, 0x2001)]) 11).toNat % 2 ≠ 0 ∧ (getReg (withRegs [(11, 0x2002)]) 11).toNat % 4 ≠ 0
    ∧ (getReg (withRegs [(10, 0x2003)]) (0b01#2 ++ 2#3) + (124#7).setWidth 32).toNat % 4 ≠ 0
    ∧ (getReg (withRegs [(2, 0x1FFA)]) 2 + (8#8).setWidth 32).toNat % 4 ≠ 0 := by decide
theorem witness_MisalignedWrites :
    (getReg (withRegs [(11, 0x2001)]) 11).toNat % 2 ≠ 0 ∧ (getReg (withRegs [(11, 0x2003)]) 11).toNat % 4 ≠ 0
    ∧ (getReg (withRegs [(10, 0x2001)]) (0b01#2 ++ 2#3) + (124#7).setWidth 32).toNat % 4 ≠ 0
    ∧ (getReg (withRegs [(2, 0x1F06)]) 2 + (252#8).setWidth 32).toNat % 4 ≠ 0
    ∧ (getReg (withRegs [(2, 0x7FF2)]) 2).toNat % 4 ≠ 0 ∧ (withRegs [(2, 0x7FF2)]).priv = .machine := by decide

/-- Every form just after RAM: x1, x2, x8 and x9 hold 0x10000 less the offset 4. -/
def pastRam : State := withRegs [(1, 0xFFFC), (2, 0xFFFC), (8, 0xFFFC), (9, 0xFFFC)]

theorem witness_FailingLoadCompletes :
    (∀ p ∈ loadForms pastRam 5 1 4 0 1 4 4, placeOf pastRam.cfg p.addr = .memory ∧ p.addr.toNat % p.bytes = 0
      ∧ readable pastRam.cfg p.addr.toNat p.bytes = false)
    ∧ getReg (withRegs [(1, 0x10000)]) 1 = 0x10000 ∧ placeOf Config.example 0x10000 = .memory
    ∧ (0x10000#32).toNat % 4 = 0 ∧ readable Config.example (0x10000#32).toNat 4 = false := by
  refine ⟨?_, by decide⟩
  simp only [loadForms, List.mem_cons, List.not_mem_nil, or_false]
  rintro p (rfl | rfl | rfl | rfl | rfl | rfl | rfl) <;> decide
theorem witness_FailingStoreCompletes :
    (∀ p ∈ storeForms pastRam 1 5 4 0 1 4 4 1, placeOf pastRam.cfg p.addr = .memory ∧ p.addr.toNat % p.bytes = 0
      ∧ writable pastRam.cfg p.addr.toNat p.bytes = false)
    ∧ (∃ s : State, getReg s 1 = 0x10000 ∧ s.reservation = some 0x10000 ∧ placeOf s.cfg 0x10000 = .memory
      ∧ (0x10000#32).toNat % 4 = 0 ∧ writable s.cfg (0x10000#32).toNat 4 = false)
    ∧ State.reset.reservation ≠ some 0x10000 ∧ readable Config.example (0x10000#32).toNat 4 = false := by
  refine ⟨?_, ⟨{ withRegs [(1, 0x10000)] with reservation := some 0x10000 }, by decide⟩, by decide⟩
  rw [storeForms, if_pos (by decide)]
  simp only [List.cons_append, List.nil_append, List.mem_cons, List.not_mem_nil, or_false]
  rintro p (rfl | rfl | rfl | rfl | rfl | rfl | rfl | rfl) <;> decide

/-- A store to the word before the parcel at 0x1000, and one after it. -/
theorem witness_FenceResults : ∃ s : State, s.storeLog ≠ [] ∧
    ∀ cells ∈ s.storeLog, ∀ cell ∈ cells, cell.1 ≠ 0x1000 ∧ cell.1 ≠ 0x1000 + 1 :=
  ⟨{ State.reset with storeLog := [[(0xFFF, 1#8)], [(0x1002, 2#8)]] }, by decide⟩

/-! ### The devices -/

/-- Every register of the window and an offset with none; a word form of each kind at mtime_hi. -/
theorem witness_TimerWordAccess : (∀ off ∈ [0, 4, 8, 12, 16, 0xFF8, 0xFFC],
      placeOf Config.example (0x40000000 + BitVec.ofNat 32 off) = .timer off)
    ∧ placeOf Config.example 0x40001000 = .memory
    ∧ (∃ p ∈ loadForms (withRegs [(9, 0x40000000)]) 5 1 4 0 1 4 4, p.bytes = 4 ∧ p.addr = 0x40000004#32)
    ∧ ∃ p ∈ storeForms (withRegs [(2, 0x40000000)]) 1 5 4 0 1 4 4 1, p.bytes = 4 ∧ p.addr = 0x40000004#32 :=
  ⟨by decide, by decide, ⟨_, .tail _ (.tail _ (.tail _ (.tail _ (.tail _ (.head _))))), by decide⟩,
    ⟨_, .tail _ (.tail _ (.tail _ (.tail _ (.head _)))), by decide⟩⟩

/-- A window across the end of the address space. -/
theorem witness_EclicAccess_wraps : let c : Config := { Config.example with eclicBase := 0xFFFFF000 }
    c.wf = true ∧ placeOf c 0xFFFFF000 = .eclic 0 ∧ placeOf c 0x00000000 = .eclic 0x1000
    ∧ placeOf c 0x0000EFFF = .eclic 0xFFFF ∧ placeOf c 0x0000F000 = .memory := by decide
theorem witness_DeviceRefusals : placeOf Config.example 0x40000FFE = .timer 0xFFE ∧ (0x40000FFE#32).toNat % 2 = 0
    ∧ placeOf Config.example 0x4001FFFC ≠ .memory ∧ (0x4001FFFC#32).toNat % 4 = 0 := by decide

/-- Bytes 0 to 3 of the block of the first source and of the last. -/
theorem witness_EclicSourceAccess :
    (∀ k ∈ [0, 1, 2, 3], placeOf Config.example (0x40011000 + BitVec.ofNat 32 k) = .eclic (0x1000 + 4 * 0 + k)
      ∧ placeOf Config.example (0x4001107C + BitVec.ofNat 32 k) = .eclic (0x1000 + 4 * 31 + k))
    ∧ (State.reset.eclic.sources[0]?).isSome = true ∧ (State.reset.eclic.sources[31]?).isSome = true
    ∧ (0x4001107C#32).toNat % 4 = 0 ∧ (0x4001107E#32).toNat % 2 = 0 := by decide

/-- cliccfg; clicinfo; the word of mth; mth; the first byte after it; the last word below the blocks, its last halfword
and byte; the first offset above the blocks, and the last of the window. -/
theorem witness_EclicGlobalAccess :
    (∀ off ∈ [0x0, 0x4, 0x8, 0xB, 0xC, 0xFFC, 0xFFE, 0xFFF, 0x1000 + 4 * State.reset.eclic.sources.length, 0xFFFF],
      placeOf Config.example (0x40010000 + BitVec.ofNat 32 off) = .eclic off)
    ∧ (0x40010FFC#32).toNat % 4 = 0 ∧ 0xFFC + 4 ≤ 0x1000 ∧ (0x40010FFE#32).toNat % 2 = 0 ∧ 0xFFE + 2 ≤ 0x1000
    ∧ (0x40010008#32).toNat % 4 = 0 ∧ (0x4001000A#32).toNat % 2 = 0 ∧ (0x40011080#32).toNat % 4 = 0 := by decide

/-- Equal level and priority: the larger id; the winner one above mth, and not above it. -/
theorem witness_ArbitrationPicksGreatest :
    let src : Source := { ip := true, ie := true, shv := false, edge := true, falling := false, ctl := 0x5F, prev := false }
    (eclicRequest { nlbits := 4, mth := 0x5E, sources := [src, src] }).map Candidate.id = some 1
    ∧ eclicRequest { nlbits := 4, mth := 0x5F, sources := [src, src] } = none := by decide

theorem witness_SamplingRules : (State.reset.eclic.sources[3]?).isSome = true
    ∧ (State.reset.eclic.sources[7]?).isSome = true ∧ (State.reset.eclic.sources[18]?).isSome = true
    ∧ (State.reset.eclic.sources[19]?).isSome = true := by decide

/-- The last error outstanding, and source 17 low; then no error, and source 17 high. -/
theorem witness_ErrorReportPulse : (∃ src : Source, State.reset.eclic.sources[17]? = some src ∧ src.prev = false)
    ∧ (nextSample { State.reset with errorReports := 1 }).deliverError = true
    ∧ (∃ (e : Eclic) (src : Source), e.sources[17]? = some src ∧ src.prev = true) :=
  ⟨⟨Source.reset 4, by decide, by decide⟩, by decide,
    ⟨{ State.reset.eclic with sources := updateSource (fun x => { x with prev := true }) 17 State.reset.eclic.sources },
      { Source.reset 4 with prev := true }, by decide, by decide⟩⟩

/-! ### Atomics -/

theorem witness_LoadReserveResult : AllMapped Config.example 0xFFFC 4 ∧ (0xFFFC#32).toNat % 4 = 0 :=
  ⟨allMapped_example _ _ (by decide), by decide⟩
theorem witness_StoreConditionalResult : AllRam Config.example 0x2000 4
    ∧ ({ State.reset with reservation := some 0x2000#32 } : State).reservation = some 0x2000#32
    ∧ ({ State.reset with reservation := some 0x2004#32 } : State).reservation ≠ some 0x2000#32
    ∧ State.reset.reservation ≠ some 0x2000#32 ∧ State.reset.mem.wf = true :=
  ⟨allRam_example _ _ (by decide), by decide, by decide, by decide, by decide⟩
theorem witness_AmoResults : State.reset.mem.wf = true ∧ (0#32).toNat % 4 = 0 ∧ AllRam Config.example 0 4 :=
  ⟨by decide, by decide, allRam_example _ _ (by decide)⟩

/-! ### Exceptions, returns, CSRs -/

theorem witness_StateStackPush : (∃ t, t = takeException 0x1000 2#12 0 State.reset) ∧ (∃ t, t = enterNmi State.reset)
    ∧ ∃ t, t = interruptEntered (winner true) State.reset := ⟨⟨_, rfl⟩, ⟨_, rfl⟩, ⟨_, rfl⟩⟩
theorem witness_TrapInstructions : inUser.priv = .user ∧ State.reset.priv = .machine := by decide
theorem witness_MretInUserMode : inUser.priv = .user := by decide
theorem witness_MretFromException : State.reset.priv = .machine ∧ State.reset.csr.causeInterrupt = false
    ∧ State.reset.csr.mpp = 0#2 ∧ State.reset.cfg.hasUmode = true ∧ State.reset.csr.save1.mpp = 0#2
    ∧ ({ CsrFile.reset with mpp := 3 } : CsrFile).mpp = 3#2 := by decide
theorem witness_MretFromInterrupt : ∃ s : State, s.priv = .machine ∧ s.csr.causeInterrupt = true ∧ s.csr.mpp = 3#2 :=
  ⟨{ State.reset with csr := { CsrFile.reset with causeInterrupt := true, mpp := 3 } }, by decide⟩
theorem witness_TrapThenReturn : State.reset.Inv ∧ (State.reset.csr.mpp = 0#2 → State.reset.cfg.hasUmode = true) :=
  ⟨reset_inv, by decide⟩
theorem witness_UserModeIsolation : inUser.priv = .user ∧ (∃ t, exec (.addi 1 1 1) inUser = .next t)
    ∧ ∃ t, exec .ecall inUser = .next t := ⟨by decide, ⟨_, rfl⟩, ⟨_, rfl⟩⟩
theorem witness_OnlyMretLowersPrivilege : State.reset.priv = .machine ∧ (after State.priv (start 0x30200073 []) = some .user) := by
  decide

/-- Each condition that stops an instruction. -/
theorem witness_InstructionsStopOnlyByName :
    NarrowTimerAccess (.sh 5 6 0) (withRegs [(5, 0x40000FFE)])
    ∧ NarrowTimerAccess (.lb 6 5 1) (withRegs [(5, 0x40000000)])
    ∧ AtomicOnDevice (.lrW 6 5 0 0) (withRegs [(5, 0x4001FFFC)])
    ∧ UndocumentedForm (.csrrw 1 2 0x345) State.reset ∧ UndocumentedForm (.csrrwi 1 2 0x7EF) State.reset
    ∧ MieMipAccess (.csrrs 1 0 0x304) State.reset :=
  ⟨⟨5, 6, 0, 0xFFE, by decide⟩, ⟨5, 6, 1, 1, by decide⟩, ⟨6, 5, 0, 0, 0, by decide⟩, ⟨by decide, 1, 2, by decide⟩,
    ⟨by decide, 1, 2, by decide⟩, ⟨by decide, by decide, 1, 0, 0x304, false, by decide⟩⟩

/-- mscratch read and written; instret only read, in User Mode with mcounteren.IR set. -/
theorem witness_CsrInstructions : csrRefusal State.reset .mscratch = none
    ∧ csrAccess State.reset 0x340 true = some .mscratch ∧ csrAccess State.reset 0x340 ((0 : BitVec 5) != 0#5) = some .mscratch
    ∧ csrAccess { inUser with csr := { CsrFile.reset with counterenIr := true } } 0xC02 ((0 : BitVec 5) != 0#5)
        = some .instret := by decide

/-- Each reason to refuse an access, and the accesses allowed in User Mode and in Machine Mode. -/
theorem witness_CsrAccessCheck : csrAt 0xFFF = none ∧ ({ Config.example with hasUmode := false } : Config).hasUmode = false
    ∧ (csrAt 0x346 = some .mintstatus ∧ csrClass .mintstatus = .mro) ∧ (csrAt 0xC00 = some .cycle ∧ csrClass .cycle = .uro)
    ∧ (csrAt 0x300 = some .mstatus ∧ csrClass .mstatus = .mrw) ∧ inUser.priv = .user
    ∧ inUser.csr.counterenCy = false ∧ inUser.csr.counterenTm = false ∧ inUser.csr.counterenIr = false
    ∧ ({ CsrFile.reset with counterenTm := true } : CsrFile).counterenTm = true := by decide
theorem witness_CsrReadsBack : (start 0 []).csr.mtvec.extractLsb' 0 6 = 3#6
    ∧ (∀ n ∈ [19, 32, 33, 4096], Config.wf { Config.example with numInterrupt := n } = true)
    ∧ Csr.mtvec ∉ seenIn .mscratch
    ∧ (0x1800#32).extractLsb' 11 2 = 3#2 ∧ ((0#32).extractLsb' 11 2 = 0#2 ∧ (start 0 []).cfg.hasUmode = true)
    ∧ (0x30000000#32).extractLsb' 28 2 = 3#2 := by decide

/-- The hypotheses of MnxtiResults and JalmnxtiResults: no request; a level equal to MPIL; a vectored one; one to serve. -/
theorem witness_MnxtiResults :
    eclicRequest State.reset.eclic = none
    ∧ (eclicRequest (sample (interrupted false true)).eclic = some (winner false)
      ∧ (winner false).level.toNat ≤ ({ CsrFile.reset with causeMpil := 0x5F } : CsrFile).causeMpil.toNat)
    ∧ (eclicRequest (sample (interrupted true true)).eclic = some (winner true) ∧ (winner true).shv = true)
    ∧ (sample (interrupted false true)).priv = .machine
    ∧ ({ (sample (interrupted false true)).csr with causeMpil := 0x5E } : CsrFile).causeMpil.toNat < (winner false).level.toNat
    ∧ (winner false).shv = false := by decide
theorem witness_JalmnxtiResults : ((sample (interrupted false true)).priv = .machine
    ∧ eclicRequest (sample (interrupted false true)).eclic = some (winner false)
    ∧ (sample (interrupted false true)).csr.causeMpil.toNat < (winner false).level.toNat ∧ (winner false).shv = false)
    ∧ AllMapped (sample (interrupted false true)).cfg
        ((sample (interrupted false true)).csr.mtvt + BitVec.ofNat 32 (4 * (winner false).id)) 4 :=
  ⟨by decide, allMapped_example 0x44C 4 (by decide)⟩
theorem witness_PushResults : (withRegs [(2, 0x7F00)]).mem.wf = true ∧ (withRegs [(2, 0x7F00)]).priv = .machine
    ∧ getReg (withRegs [(2, 0x7F00)]) 2 + 4 * (31#5).setWidth 32 = 0x7F7C#32 ∧ (0x7F7C#32).toNat % 4 = 0
    ∧ AllRam (withRegs [(2, 0x7F00)]).cfg 0x7F7C 4 :=
  ⟨by decide, by decide, by decide, by decide, allRam_example _ _ (by decide)⟩
theorem witness_ScratchSwapResults : State.reset.priv = .machine ∧ State.reset.csr.mpp ≠ 3#2
    ∧ ¬ (({ CsrFile.reset with mpp := 3 } : CsrFile).mpp ≠ 3#2)
    ∧ ¬ ((0#8 : Byte) = 0#8 ↔ (0x7F#8 : Byte) = 0#8) ∧ ((0x3F#8 : Byte) = 0#8 ↔ (0x7F#8 : Byte) = 0#8) := by decide
theorem witness_UndocumentedForms : State.reset.priv = .machine ∧ (1 : BitVec 5) ≠ 0#5 := by decide

end Sys2Proof.Tests
end

section
/-! PROOF. Reset meets the invariant (70_reset_and_hazards.md R601): the base of the step lemma. -/

namespace Sys2Proof.Machine

/-- The reset vectors that R9 allows are addresses the pc can hold (10_state.md R22). -/
theorem even_resetVector (c : Config) (h : c.wf = true) : even c.resetVector = true := by
  have hv : c.resetVector.toNat % 2 = 0 := by
    simp only [Config.wf, Bool.and_eq_true, beq_iff_eq] at h
    obtain ⟨⟨⟨⟨⟨hv, -⟩, -⟩, -⟩, -⟩, -⟩ := h
    exact hv
  simp [even, BitVec.getLsbD, Nat.testBit_zero, hv]

/-- Every parameter-dependent field of the reset CSR file is 0, so no alignment or User Mode parameter matters. -/
theorem CsrFile.reset_inv (c : Config) : CsrFile.reset.Inv c where
  mepc := rfl
  epc1 := rfl
  epc2 := rfl
  cause1 := BitVec.zero_and
  cause2 := BitVec.zero_and
  mtvt := BitVec.zero_and
  mtvt2 := BitVec.zero_and
  mpp := rfl
  counteren := fun _ => ⟨rfl, rfl, rfl⟩

/-- Settles O2: the parameters enter through the reset vector and the ECLIC's sources; the rest holds at any of them. -/
theorem resetMeetsInvariant : Obligations.ResetMeetsInvariant := fun c hc =>
  { cfg := hc
    pc := even_resetVector c hc
    priv := fun hu => Priv.noConfusion hu
    csr := CsrFile.reset_inv c
    eclic := Eclic.reset_inv c
    mem := rfl }

end Sys2Proof.Machine
end

section
/-! PROOF. What decodes is well-formed (30_encoding.md R177, R179, R189; 46_c_compressed.md): one lemma for each part of
the decoder. -/

namespace Sys2Proof

/-- An immediate that ends in `k` constant zeros is a multiple of 2^k. -/
theorem multipleOf_append_zeros {m : Nat} (k : Nat) (v : BitVec m) : multipleOf (2 ^ k) (v ++ 0#k) = true := by
  simp [multipleOf, BitVec.toNat_append, Nat.shiftLeft_eq]

theorem immB_even (w : Word) : multipleOf 2 (immB w) = true := multipleOf_append_zeros 1 _

theorem immJ_even (w : Word) : multipleOf 2 (immJ w) = true := multipleOf_append_zeros 1 _

theorem immCj_even (p : BitVec 16) : multipleOf 2 (immCj p) = true := multipleOf_append_zeros 1 _

theorem immCb_even (p : BitVec 16) : multipleOf 2 (immCb p) = true := multipleOf_append_zeros 1 _

theorem immCiw_scaled (p : BitVec 16) : multipleOf 4 (immCiw p) = true := multipleOf_append_zeros 2 _

theorem immCl_scaled (p : BitVec 16) : multipleOf 4 (immCl p) = true := multipleOf_append_zeros 2 _

theorem immC16sp_scaled (p : BitVec 16) : multipleOf 16 (immC16sp p) = true := multipleOf_append_zeros 4 _

theorem immClwsp_scaled (p : BitVec 16) : multipleOf 4 (immClwsp p) = true := multipleOf_append_zeros 2 _

theorem immCss_scaled (p : BitVec 16) : multipleOf 4 (immCss p) = true := multipleOf_append_zeros 2 _

/-! ## 32-bit words -/

theorem decodeBranch_wf {w : Word} {i : Instr} (h : decodeBranch w = some i) : i.wf = true := by
  unfold decodeBranch at h
  split at h <;> cases h <;> exact immB_even w

theorem decodeLoad_wf {w : Word} {i : Instr} (h : decodeLoad w = some i) : i.wf = true := by
  unfold decodeLoad at h
  split at h <;> cases h <;> rfl

theorem decodeStore_wf {w : Word} {i : Instr} (h : decodeStore w = some i) : i.wf = true := by
  unfold decodeStore at h
  split at h <;> cases h <;> rfl

theorem decodeOpImm_wf {w : Word} {i : Instr} (h : decodeOpImm w = some i) : i.wf = true := by
  unfold decodeOpImm at h
  repeat' split at h
  all_goals cases h <;> rfl

theorem decodeOp_wf {w : Word} {i : Instr} (h : decodeOp w = some i) : i.wf = true := by
  unfold decodeOp at h
  split at h <;> cases h <;> rfl

theorem decodeMiscMem_wf {w : Word} {i : Instr} (h : decodeMiscMem w = some i) : i.wf = true := by
  unfold decodeMiscMem at h
  split at h <;> cases h <;> rfl

theorem decodeAmo_wf {w : Word} {i : Instr} (h : decodeAmo w = some i) : i.wf = true := by
  unfold decodeAmo at h
  repeat' split at h
  all_goals cases h <;> rfl

theorem decodeSystem_wf {w : Word} {i : Instr} (h : decodeSystem w = some i) : i.wf = true := by
  unfold decodeSystem at h
  repeat' split at h
  all_goals cases h <;> rfl

theorem decode32_wf {w : Word} {i : Instr} (h : decode32 w = some i) : i.wf = true := by
  unfold decode32 at h
  split at h
  case h_1 => cases h; rfl
  case h_2 => cases h; rfl
  case h_3 => cases h; exact immJ_even w
  case h_4 => split at h <;> cases h; rfl
  case h_5 => exact decodeBranch_wf h
  case h_6 => exact decodeLoad_wf h
  case h_7 => exact decodeStore_wf h
  case h_8 => exact decodeOpImm_wf h
  case h_9 => exact decodeOp_wf h
  case h_10 => exact decodeMiscMem_wf h
  case h_11 => exact decodeAmo_wf h
  case h_12 => exact decodeSystem_wf h
  case h_13 => cases h

/-! ## 16-bit words -/

theorem decodeQ0_wf {p : BitVec 16} {i : Instr} (h : decodeQ0 p = some i) : i.wf = true := by
  unfold decodeQ0 at h
  split at h
  · split at h <;> cases h
    next hz => simp [Instr.wf, immCiw_scaled, hz]
  · cases h; exact immCl_scaled p
  · cases h; exact immCl_scaled p
  · cases h

theorem decodeQ1Alu_wf {p : BitVec 16} {i : Instr} (h : decodeQ1Alu p = some i) : i.wf = true := by
  unfold decodeQ1Alu at h
  repeat' split at h
  all_goals cases h <;> rfl

theorem decodeQ1Lui_wf {p : BitVec 16} {i : Instr} (h : decodeQ1Lui p = some i) : i.wf = true := by
  unfold decodeQ1Lui at h
  split at h
  · split at h <;> cases h
    next hz => simp [Instr.wf, immC16sp_scaled, hz]
  · next hsp =>
    split at h <;> cases h
    next hz => simp [Instr.wf, hsp, hz]

theorem decodeQ1_wf {p : BitVec 16} {i : Instr} (h : decodeQ1 p = some i) : i.wf = true := by
  unfold decodeQ1 at h
  split at h
  · split at h <;> cases h
    · rfl
    next hrd => simp [Instr.wf, hrd]
  · cases h; exact immCj_even p
  · cases h; rfl
  · exact decodeQ1Lui_wf h
  · exact decodeQ1Alu_wf h
  · cases h; exact immCj_even p
  · cases h; exact immCb_even p
  · cases h; exact immCb_even p

theorem decodeQ2Jump_wf {p : BitVec 16} {i : Instr} (h : decodeQ2Jump p = some i) : i.wf = true := by
  unfold decodeQ2Jump at h
  repeat' split at h
  all_goals cases h <;> simp_all [Instr.wf]

theorem decodeQ2_wf {p : BitVec 16} {i : Instr} (h : decodeQ2 p = some i) : i.wf = true := by
  unfold decodeQ2 at h
  split at h
  · split at h <;> cases h; rfl
  · split at h <;> cases h
    next hrd => simp [Instr.wf, immClwsp_scaled, hrd]
  · exact decodeQ2Jump_wf h
  · cases h; exact immCss_scaled p
  · cases h

theorem decode16_wf {p : BitVec 16} {i : Instr} (h : decode16 p = some i) : i.wf = true := by
  unfold decode16 at h
  split at h
  · exact decodeQ0_wf h
  · exact decodeQ1_wf h
  · exact decodeQ2_wf h
  · cases h

/-- Whatever the decoder accepts is a well-formed instruction; so the offsets of jumps and branches it gives are even. -/
theorem decodeEncoding_wf {e : Encoding} {i : Instr} (h : decodeEncoding e = .ok i) : i.wf = true := by
  unfold decodeEncoding at h
  split at h
  · split at h <;> cases h
    next hd => exact decode16_wf hd
  · split at h
    · cases h
    · split at h <;> cases h
      next hd => exact decode32_wf hd

end Sys2Proof
end

section
/-! PROOF. The CSRs of 10_state.md R41 and the access check of R42, in the form of csrTable. -/

namespace Sys2Proof.Machine

/-! ## The table -/

theorem csrTable_csrAt : ∀ p ∈ csrTable, csrAt p.1 = some p.2.1 ∧ csrClass p.2.1 = p.2.2 := by decide

/-- An existing register stands in the table, with its address and its class. -/
theorem mem_csrTable_of_csrAt {a : CsrAddr} {k : Csr} (h : csrAt a = some k) : (a, k, csrClass k) ∈ csrTable := by
  unfold csrAt at h
  split at h <;> cases h <;> decide

theorem csrTable_mcounteren : ∀ p ∈ csrTable, p.2.1 = .mcounteren → p.1 = 0x306#12 := by decide

/-- The read-only registers of User Mode are the counters, each with its low and its high half. -/
theorem csrTable_uro : ∀ p ∈ csrTable, p.2.2 = .uro →
    (p.1 = 0xC00#12 ∨ p.1 = 0xC80#12) ∨ (p.1 = 0xC01#12 ∨ p.1 = 0xC81#12)
      ∨ (p.1 = 0xC02#12 ∨ p.1 = 0xC82#12) := by decide

/-- The enable bit that User Mode needs for the counter at an address. -/
theorem counterEnabled_at {a : CsrAddr} {k : Csr} (h : csrAt a = some k) (r : CsrFile) :
    ((a = 0xC00#12 ∨ a = 0xC80#12) → counterEnabled r k = r.counterenCy) ∧
    ((a = 0xC01#12 ∨ a = 0xC81#12) → counterEnabled r k = r.counterenTm) ∧
    ((a = 0xC02#12 ∨ a = 0xC82#12) → counterEnabled r k = r.counterenIr) := by
  refine ⟨?_, ?_, ?_⟩ <;> rintro (rfl | rfl) <;> cases h <;> rfl

/-! ## The check -/

/-- The access check lets through the existing registers of the implementation that the mode may access. -/
theorem csrAccess_eq_some_iff {s : State} {a : CsrAddr} {wr : Bool} {k : Csr} :
    csrAccess s a wr = some k ↔
      csrAt a = some k ∧ ¬(k = .mcounteren ∧ s.cfg.hasUmode = false) ∧ accessAllowed s k wr = true := by
  unfold csrAccess
  cases csrAt a with
  | none => simp
  | some k' =>
    simp only [Option.some.injEq]
    constructor
    · intro h
      split at h
      · cases h
      · split at h <;> cases h
        exact ⟨rfl, by assumption, by assumption⟩
    · rintro ⟨rfl, hm, ha⟩
      rw [if_neg hm, if_pos ha]

/-- mcounteren can be accessed only where there is User Mode (11_csr.md R66). -/
theorem csrAccess_mcounteren {s : State} {a : CsrAddr} {wr : Bool} {k : Csr} (h : csrAccess s a wr = some k)
    (hk : k = .mcounteren) : s.cfg.hasUmode = true := by
  obtain ⟨-, hm, -⟩ := csrAccess_eq_some_iff.1 h
  simpa [hk] using hm

theorem accessAllowed_machine {s : State} (h : s.priv = .machine) (k : Csr) (wr : Bool) :
    accessAllowed s k wr = true ↔ (wr = true → csrClass k = .mrw) := by
  cases wr <;> simp [accessAllowed, h]

theorem accessAllowed_user {s : State} (h : s.priv = .user) (k : Csr) (wr : Bool) :
    accessAllowed s k wr = true ↔ csrClass k = .uro ∧ wr = false ∧ counterEnabled s.csr k = true := by
  simp [accessAllowed, h, and_assoc]

/-- In either mode an access that is allowed does not write to a read-only register. -/
theorem csrClass_of_allowed_write {s : State} {k : Csr} (h : accessAllowed s k true = true) : csrClass k = .mrw := by
  cases hp : s.priv with
  | machine => exact (accessAllowed_machine hp k true).1 h rfl
  | user => simpa using (accessAllowed_user hp k true).1 h

/-- Where the access check lets nothing through, each of the six instructions is illegal (43 R288). -/
theorem exec_csrForms_illegal {s : State} {rd r : BitVec 5} {a : CsrAddr} {p : Instr × Bool}
    (hp : p ∈ csrForms rd r a) (h : csrAccess s a p.2 = none) : exec p.1 s = raiseIllegal p.1 s := by
  simp only [csrForms, List.mem_cons, List.not_mem_nil, or_false] at hp
  rcases hp with rfl | rfl | rfl | rfl | rfl | rfl
  · simp only [exec, execCsrrw, h]
  · simp only [exec, execCsrrs, h]
  · simp only [exec, execCsrrc, h]
  · simp only [exec, execCsrrwi, h]
  · simp only [exec, execCsrrsi, h]
  · simp only [exec, execCsrrci, h]

/-- Each condition of R42 closes the access. -/
theorem csrAccess_none {s : State} {a : CsrAddr} {wr : Bool}
    (h : csrAt a = none
      ∨ (a = 0x306#12 ∧ s.cfg.hasUmode = false)
      ∨ (wr = true ∧ ∃ k, csrAt a = some k ∧ (csrClass k = .mro ∨ csrClass k = .uro))
      ∨ (s.priv = .user ∧ ∃ k, csrAt a = some k ∧ (csrClass k = .mrw ∨ csrClass k = .mro))
      ∨ (s.priv = .user ∧ (a = 0xC00#12 ∨ a = 0xC80#12) ∧ s.csr.counterenCy = false)
      ∨ (s.priv = .user ∧ (a = 0xC01#12 ∨ a = 0xC81#12) ∧ s.csr.counterenTm = false)
      ∨ (s.priv = .user ∧ (a = 0xC02#12 ∨ a = 0xC82#12) ∧ s.csr.counterenIr = false)) :
    csrAccess s a wr = none := by
  refine Option.eq_none_iff_forall_ne_some.2 fun k hk => ?_
  obtain ⟨hat, hm, ha⟩ := csrAccess_eq_some_iff.1 hk
  obtain ⟨hcy, htm, hir⟩ := counterEnabled_at hat s.csr
  have huser (hu : s.priv = .user) := (accessAllowed_user hu k wr).1 ha
  rcases h with h | ⟨rfl, h⟩ | ⟨rfl, k', hk', h⟩ | ⟨hu, k', hk', h⟩ | ⟨hu, h, he⟩ | ⟨hu, h, he⟩ | ⟨hu, h, he⟩
  · simp [h] at hat
  · cases hat
    exact hm ⟨rfl, h⟩
  · cases hat.symm.trans hk'
    simp [csrClass_of_allowed_write ha] at h
  · cases hat.symm.trans hk'
    simp [(huser hu).1] at h
  · simpa [hcy h, he] using huser hu
  · simpa [htm h, he] using huser hu
  · simpa [hir h, he] using huser hu

/-- With none of the conditions met the access is allowed. -/
theorem csrAccess_allowed {s : State} {a : CsrAddr} {k : Csr} {wr : Bool} (hat : csrAt a = some k)
    (hm : ¬(a = 0x306#12 ∧ s.cfg.hasUmode = false)) (hw : ¬(wr = true ∧ csrClass k ≠ .mrw))
    (hu : s.priv = .user → csrClass k = .uro
      ∧ ((a = 0xC00#12 ∨ a = 0xC80#12) → s.csr.counterenCy = true)
      ∧ ((a = 0xC01#12 ∨ a = 0xC81#12) → s.csr.counterenTm = true)
      ∧ ((a = 0xC02#12 ∨ a = 0xC82#12) → s.csr.counterenIr = true)) :
    csrAccess s a wr = some k := by
  have hmem := mem_csrTable_of_csrAt hat
  refine csrAccess_eq_some_iff.2 ⟨hat, fun h => hm ⟨csrTable_mcounteren _ hmem h.1, h.2⟩, ?_⟩
  cases hp : s.priv with
  | machine => exact (accessAllowed_machine hp k wr).2 fun hwr => by simpa [hwr] using hw
  | user =>
    obtain ⟨hc, hcy, htm, hir⟩ := hu hp
    obtain ⟨ecy, etm, eir⟩ := counterEnabled_at hat s.csr
    refine (accessAllowed_user hp k wr).2 ⟨hc, by simpa [hc] using hw, ?_⟩
    rcases csrTable_uro _ hmem hc with h | h | h
    · rw [ecy h, hcy h]
    · rw [etm h, htm h]
    · rw [eir h, hir h]

/-- Settles O54: the table from its evaluation, and the check by its two halves. -/
theorem csrAccessCheck : Obligations.CsrAccessCheck := by
  refine ⟨csrTable_csrAt, fun a ha => ?_, fun s rd r a p hp h => exec_csrForms_illegal hp (csrAccess_none h),
    fun s a k wr => csrAccess_allowed⟩
  exact Option.eq_none_iff_forall_ne_some.2 fun k hk => ha _ (mem_csrTable_of_csrAt hk) rfl

end Sys2Proof.Machine
end

section
/-! PROOF. The parts of the invariant: even addresses, what the registers keep of a value, and the CSR file after each
change of it. -/

namespace Sys2Proof.Machine

/-! ## Even addresses -/

theorem even_iff (a : Word) : even a = true ↔ a.toNat % 2 = 0 := by
  simp [even, BitVec.getLsbD, Nat.testBit_zero]

theorem even_sext {n : Nat} {offset : BitVec n} (h : multipleOf 2 offset = true) : even (sext offset) = true := by
  have h0 : offset.getLsbD 0 = false := by
    simpa [multipleOf, BitVec.getLsbD, Nat.testBit_zero] using h
  have hm : 0 < n ∨ offset.msb = false := by
    rcases Nat.eq_zero_or_pos n with rfl | hn
    · exact .inr (by simp [BitVec.eq_nil offset])
    · exact .inl hn
  simp only [even, sext, BitVec.getLsbD_signExtend, beq_iff_eq]
  rcases hm with hn | hm
  · rw [if_pos hn, h0]; rfl
  · simp [h0, hm]

theorem even_pcOffset {s : State} {n : Nat} {offset : BitVec n} (hpc : even s.pc = true)
    (h : multipleOf 2 offset = true) : even (pcOffset s offset) = true := even_add _ _ hpc (even_sext h)

/-- At least the six low bits of mtvt are 0 (11_csr.md R67). -/
theorem six_le_mtvtAlignBits (n : Nat) : 6 ≤ mtvtAlignBits n := by
  unfold mtvtAlignBits
  repeat' split
  all_goals decide

theorem even_mtvtLayout (c : Config) (v : Word) : even (mtvtLayout c v) = true := by
  have h := six_le_mtvtAlignBits c.numInterrupt
  simp only [even, mtvtLayout, BitVec.getLsbD_and, BitVec.getLsbD_shiftLeft, beq_iff_eq]
  simp [show 0 < mtvtAlignBits c.numInterrupt by omega]

/-- The vector table is aligned and its entries are words. -/
theorem even_vectorEntry {c : Config} {r : CsrFile} (h : mtvtLayout c r.mtvt = r.mtvt) (id : Nat) :
    even (vectorEntry r id) = true := by
  refine even_add _ _ (h ▸ even_mtvtLayout c r.mtvt) ((even_iff _).2 ?_)
  simp only [BitVec.toNat_ofNat]
  omega

/-! ## What the registers keep of a value -/

theorem mtvtLayout_idem (c : Config) (v : Word) : mtvtLayout c (mtvtLayout c v) = mtvtLayout c v := by
  simp [mtvtLayout, BitVec.and_assoc]

theorem mtvt2Layout_idem (v : Word) : mtvt2Layout (mtvt2Layout v) = mtvt2Layout v := by
  simp [mtvt2Layout, BitVec.and_assoc]

theorem causeLayout_idem (v : Word) : causeLayout (causeLayout v) = causeLayout v := by
  simp [causeLayout, BitVec.and_assoc]

/-- The mode that `mret` enters is one of the core (10_state.md R24). -/
theorem privOfMpp_user {c : Config} {m : Bool} {v : BitVec 2} (h : privOfMpp c m v = .user) : c.hasUmode = true := by
  cases hu : c.hasUmode with
  | true => rfl
  | false =>
    have hm : legalMpp c m v = 3#2 := by simp [legalMpp, hu]
    simp [privOfMpp, hm] at h

/-! ## The CSR file -/

section CsrFile

variable {c : Config} {r : CsrFile}

theorem pushState_inv (h : r.Inv c) : (pushState r).Inv c :=
  { h with
    epc1 := h.mepc
    epc2 := h.epc1
    cause1 := causeLayout_mcauseWord r
    cause2 := h.cause1 }

theorem loadCause_inv (h : r.Inv c) (v : Word) : (loadCause r v).Inv c := { h with }

theorem popState_inv (h : r.Inv c) (m : Bool) : (popState c m r).Inv c :=
  { h with
    mepc := h.epc1
    epc1 := h.epc2
    cause1 := h.cause2
    mpp := legalMpp_legal c m _ }

theorem leaveInterrupt_inv (h : r.Inv c) : (leaveInterrupt c r).Inv c :=
  { h with
    mpp := by cases hu : c.hasUmode <;> simp [leaveInterrupt, hu, mppLegal] }

theorem returnCsr_inv (h : r.Inv c) (m : Bool) : (returnCsr c m r).Inv c := by
  have hp : CsrFile.Inv c (if r.causeInterrupt then leaveInterrupt c r else popState c m r) := by
    split
    · exact leaveInterrupt_inv h
    · exact popState_inv h m
  exact { hp with }

theorem writeMstatus_inv (h : r.Inv c) (m : Bool) (v : Word) : (writeMstatus c m r v).Inv c :=
  { h with mpp := legalMpp_legal c m _ }

theorem writeMcause_inv (h : r.Inv c) (m : Bool) (v : Word) : (writeMcause c m r v).Inv c :=
  { h with mpp := legalMpp_legal c m _ }

theorem resetCsr_inv (c : Config) (r : CsrFile) : (resetCsr r).Inv c := { CsrFile.reset_inv c with }

end CsrFile

/-- A write through the access check keeps the constant bits; without User Mode there is no mcounteren to write. -/
theorem csrWrite_csr_inv {s : State} (h : s.csr.Inv s.cfg) {k : Csr} (hk : k = .mcounteren → s.cfg.hasUmode = true)
    (v : Word) : (csrWrite s k v).csr.Inv s.cfg := by
  cases k
  case mstatus => exact writeMstatus_inv h _ v
  case mcause => exact writeMcause_inv h _ v
  case mcounteren => exact { h with counteren := fun hu => absurd hu (by simp [hk rfl]) }
  case mtvt => exact { h with mtvt := mtvtLayout_idem s.cfg v }
  case mtvt2 => exact { h with mtvt2 := mtvt2Layout_idem v }
  case mepc => exact { h with mepc := even_clearBit0 v }
  case msaveepc1 => exact { h with epc1 := even_clearBit0 v }
  case msaveepc2 => exact { h with epc2 := even_clearBit0 v }
  case msavecause1 => exact { h with cause1 := causeLayout_idem v }
  case msavecause2 => exact { h with cause2 := causeLayout_idem v }
  case txevt => simp only [csrWrite]; split <;> exact h
  all_goals exact { h with }

end Sys2Proof.Machine
end

section
/-! PROOF. Every step keeps the invariant: the shared operations, then the instructions, which are made of them, then the
step. -/

namespace Sys2Proof.Machine

/-! ## Answers that keep the invariant -/

/-- The answer is no next state, or one that meets the invariant. -/
def NextInv (o : Out) : Prop := ∀ t, o = .next t → t.Inv

@[simp] theorem nextInv_next {t : State} : NextInv (.next t) ↔ t.Inv :=
  ⟨fun h => h t rfl, fun h _ e => by cases e; exact h⟩

@[simp] theorem nextInv_refused (r : Refusal) : NextInv (.refused r) := fun _ e => by cases e

@[simp] theorem nextInv_fault (f : Fault) : NextInv (.fault f) := fun _ e => by cases e

/-- The invariant speaks of six fields: an update that leaves them alone, but for the pc, keeps it. -/
theorem State.Inv.of_same {s t : State} (h : s.Inv) (hcfg : t.cfg = s.cfg) (hpc : even t.pc = true)
    (hpriv : t.priv = s.priv) (hcsr : t.csr = s.csr) (heclic : t.eclic = s.eclic) (hmem : t.mem = s.mem) : t.Inv where
  cfg := hcfg ▸ h.cfg
  pc := hpc
  priv := by rw [hpriv, hcfg]; exact h.priv
  csr := by rw [hcsr, hcfg]; exact h.csr
  eclic := by rw [heclic, hcfg]; exact h.eclic
  mem := hmem ▸ h.mem

/-! ## The shared operations -/

section Ops

variable {s : State}

theorem setReg_inv (h : s.Inv) (rd : Reg) (v : Word) : (setReg s rd v).Inv :=
  h.of_same (by simp) (by simpa using h.pc) (by simp) (by simp) (by simp) (by simp)

theorem retireTo_inv (h : s.Inv) {target : Word} (ht : even target = true) : (retireTo target s).Inv :=
  h.of_same rfl ht rfl rfl rfl rfl

theorem retire_inv (h : s.Inv) {len : Word} (hl : even len = true) : (retire len s).Inv :=
  retireTo_inv h (even_add _ _ h.pc hl)

theorem reportError_inv (h : s.Inv) : (reportError s).Inv := { h with }

theorem writeResult_inv (h : s.Inv) {len : Word} (hl : even len = true) (rd : Reg) (v : Word) :
    NextInv (writeResult len rd v s) := nextInv_next.2 (retire_inv (setReg_inv h rd v) hl)

theorem jumpAndLink_inv (h : s.Inv) {target : Word} (ht : even target = true) (len : Word) (rd : Reg) :
    NextInv (jumpAndLink len rd target s) := nextInv_next.2 (retireTo_inv (setReg_inv h rd _) ht)

theorem branchIf_inv (h : s.Inv) {n : Nat} {offset : BitVec n} (ho : multipleOf 2 offset = true) {len : Word}
    (hl : even len = true) (taken : Bool) : NextInv (branchIf len taken (sext offset) s) := by
  refine nextInv_next.2 (retireTo_inv h ?_)
  split
  · exact even_add _ _ h.pc (even_sext ho)
  · exact even_add _ _ h.pc hl

/-! ### Traps and returns -/

theorem takeException_inv (h : s.Inv) {epc : Word} (he : even epc = true) (code : BitVec 12) (tval : Word) :
    (takeException epc code tval s).Inv :=
  { h with
    pc := even_clearLow2 _
    priv := nofun
    csr := { pushState_inv h.csr with mepc := he, mpp := mppLegal_privCode s.priv } }

theorem raise_inv (h : s.Inv) (code : BitVec 12) (tval : Word) : NextInv (raise code tval s) :=
  nextInv_next.2 (takeException_inv h h.pc code tval)

theorem enterNmi_inv (h : s.Inv) : (enterNmi s).Inv :=
  { h with
    pc := by
      rw [enterNmi_pc, nmiEntryAddress]
      split
      · exact even_clearLow2 _
      · exact even_resetVector _ h.cfg
    priv := nofun
    csr := { pushState_inv h.csr with mepc := h.pc, mpp := mppLegal_privCode s.priv } }

theorem returnFromTrap_inv (h : s.Inv) : (returnFromTrap s).Inv :=
  { h with
    pc := h.csr.mepc
    priv := privOfMpp_user
    csr := returnCsr_inv h.csr _ }

theorem interruptEntered_inv (h : s.Inv) (w : Candidate) : (interruptEntered w s).Inv :=
  { h with
    priv := nofun
    csr := { h.csr with mepc := h.pc, mpp := mppLegal_privCode s.priv } }

theorem setMinhv_inv (h : s.Inv) (b : Bool) : (setMinhv b s).Inv := { h with csr := { h.csr with } }

theorem vectoredJump_inv (h : s.Inv) (w : Candidate) : (vectoredJump w s).Inv := by
  unfold vectoredJump
  split
  · exact { setMinhv_inv h false with
      pc := even_clearBit0 _
      eclic := claim_inv _ _ _ h.eclic }
  · exact takeException_inv (setMinhv_inv h true) (even_vectorEntry h.csr.mtvt w.id) _ _

theorem even_interruptEntryAddress (r : CsrFile) : even (interruptEntryAddress r) = true := by
  unfold interruptEntryAddress
  split <;> exact even_clearLow2 _

theorem enterInterrupt_inv (h : s.Inv) (w : Candidate) : (enterInterrupt w s).Inv := by
  unfold enterInterrupt
  split
  · exact vectoredJump_inv (interruptEntered_inv h w) w
  · exact { interruptEntered_inv h w with pc := even_interruptEntryAddress _ }

/-! ### Data accesses -/

theorem readExtended_inv (h : s.Inv) (ext : Word → Word) (a : Word) (n : Nat) : (readExtended ext s a n).2.Inv := by
  rcases readExtended_cases ext s a n with ⟨v, -, e⟩ | ⟨-, e⟩ <;> rw [e]
  · exact h
  · exact reportError_inv h

theorem readData_inv (h : s.Inv) (a : Word) (n : Nat) : (readData s a n).2.Inv := readExtended_inv h id a n

theorem storeBytes_inv (h : s.Inv) (p : Nat → Bool) {a : Word} {bytes : List Byte}
    (hb : a.toNat + bytes.length ≤ 2 ^ 32) : (storeBytes p a bytes s).Inv :=
  { h with mem := Memory.writeWhere_wf p s.mem a.toNat bytes h.mem hb }

theorem storeMemory_inv (h : s.Inv) {a : Word} {n : Nat} (hb : a.toNat + n ≤ 2 ^ 32) (v : Word) :
    (storeMemory a n v s).Inv := by
  unfold storeMemory
  split
  · exact storeBytes_inv h _ (by simpa using hb)
  · exact reportError_inv (storeBytes_inv h _ (by simpa using hb))

theorem writeData_inv (h : s.Inv) {a : Word} {n : Nat} (hb : a.toNat + n ≤ 2 ^ 32) (v : Word) :
    (writeData a n v s).Inv := by
  unfold writeData
  split
  · exact { h with }
  · exact { h with eclic := eclicWrite_inv _ _ _ _ h.eclic }
  · exact storeMemory_inv h hb v

theorem loadOp_inv (h : s.Inv) {len : Word} (hl : even len = true) (n : Nat) (ext : Word → Word) (rd : Reg) (a : Word) :
    NextInv (loadOp len n ext rd a s) := by
  rcases loadOp_cases len n ext rd a s with ⟨-, e⟩ | ⟨-, -, e⟩ | ⟨-, -, e⟩ <;> rw [e]
  · exact raise_inv h _ _
  · exact nextInv_refused _
  · exact nextInv_next.2 (retire_inv (setReg_inv (readExtended_inv h ext a n) _ _) hl)

theorem storeOp_inv (h : s.Inv) {len : Word} (hl : even len = true) {n : Nat} (hn : n = 1 ∨ n = 2 ∨ n = 4)
    (v a : Word) : NextInv (storeOp len n v a s) := by
  rcases storeOp_cases len n v a s with ⟨-, e⟩ | ⟨-, -, e⟩ | ⟨ha, -, e⟩ <;> rw [e]
  · exact raise_inv h _ _
  · exact nextInv_refused _
  · exact nextInv_next.2 (retire_inv (writeData_inv h (aligned_bound a n hn ha) v) hl)

theorem loadReserve_inv (h : s.Inv) (rd : Reg) (a : Word) : NextInv (loadReserve rd a s) := by
  unfold loadReserve
  split
  · exact raise_inv h _ _
  split
  · exact nextInv_refused _
  · refine nextInv_next.2 (retire_inv ?_ rfl)
    exact { setReg_inv (readData_inv h a 4) rd _ with }

theorem storeConditional_inv (h : s.Inv) (rd : Reg) (v a : Word) : NextInv (storeConditional rd v a s) := by
  unfold storeConditional
  split
  · exact raise_inv h _ _
  next ha =>
    have hb : a.toNat + 4 ≤ 2 ^ 32 := aligned_bound a 4 (by decide) (by simpa using ha)
    split
    · exact nextInv_refused _
    split
    · refine nextInv_next.2 (retire_inv ?_ rfl)
      exact { setReg_inv (storeMemory_inv h hb v) rd 0#32 with }
    · refine nextInv_next.2 (retire_inv ?_ rfl)
      exact { setReg_inv h rd 1#32 with }

theorem atomicOp_inv (h : s.Inv) (op : Word → Word → Word) (rd : Reg) (v a : Word) :
    NextInv (atomicOp op rd v a s) := by
  unfold atomicOp
  split
  · exact raise_inv h _ _
  next ha =>
    have hb : a.toNat + 4 ≤ 2 ^ 32 := aligned_bound a 4 (by decide) (by simpa using ha)
    split
    · exact nextInv_refused _
    split
    · exact nextInv_next.2 (retire_inv (setReg_inv (storeMemory_inv h hb _) _ _) rfl)
    · exact nextInv_next.2 (retire_inv (setReg_inv (reportError_inv (storeBytes_inv h _ (by simpa using hb))) _ _) rfl)

/-! ### CSR accesses -/

theorem csrWrite_inv (h : s.Inv) {k : Csr} (hk : k = .mcounteren → s.cfg.hasUmode = true) (v : Word) :
    (csrWrite s k v).Inv := by
  rw [csrWrite_frame]
  exact { h with csr := csrWrite_csr_inv h.csr hk v }

theorem csrOp_inv (h : s.Inv) {k : Csr} (hk : k = .mcounteren → s.cfg.hasUmode = true) (rd : Reg) (wr : Bool)
    (v : Word) : NextInv (csrOp rd k wr v s) := by
  have hu : (csrUpdated s k wr v).Inv := by
    unfold csrUpdated
    split
    · exact csrWrite_inv h hk v
    · exact h
  rcases csrOp_cases rd k wr v s with ⟨r, -, e⟩ | ⟨-, e⟩ <;> rw [e]
  · exact nextInv_refused r
  · exact nextInv_next.2 { setReg_inv hu rd _ with pc := even_add _ _ h.pc rfl }

theorem claimNext_inv (h : s.Inv) (w : Candidate) : (claimNext w s).Inv :=
  { h with
    csr := { h.csr with }
    eclic := claim_inv _ _ _ h.eclic }

theorem mnxtiStatus_inv (h : s.Inv) (set : Bool) (uimm : BitVec 5) : (mnxtiStatus set uimm s).Inv := by
  unfold mnxtiStatus
  split
  · exact { h with csr := { h.csr with } }
  · exact h

theorem mnxtiValue_inv (h : s.Inv) (w : Candidate) : (mnxtiValue s w).2.Inv := by
  unfold mnxtiValue
  split
  · exact h
  · exact readData_inv h _ 4

theorem mnxtiOp_inv (h : s.Inv) (set : Bool) (rd : Reg) (uimm : BitVec 5) : NextInv (mnxtiOp set rd uimm s) := by
  unfold mnxtiOp
  split
  · exact writeResult_inv (mnxtiStatus_inv h set uimm) rfl _ _
  · refine writeResult_inv (mnxtiValue_inv ?_ _) rfl _ _
    split
    · exact h
    · exact claimNext_inv (mnxtiStatus_inv h set uimm) _

theorem jalmnxtiOp_inv (h : s.Inv) (rd : Reg) : NextInv (jalmnxtiOp rd s) := by
  unfold jalmnxtiOp
  split
  · exact nextInv_next.2 (retire_inv h rfl)
  next w _ =>
    have ht := readData_inv h (vectorEntry s.csr w.id) 4
    refine nextInv_next.2 (retireTo_inv (setReg_inv (claimNext_inv ?_ w) rd s.pc) (even_clearBit0 _))
    exact { ht with csr := { ht.csr with } }

theorem pushOp_inv (h : s.Inv) (uimm : BitVec 5) (v : Word) : NextInv (pushOp uimm v s) :=
  storeOp_inv h rfl (by decide) _ _

theorem scratchSwap_inv (h : s.Inv) (swap : Bool) (rd rs1 : Reg) : NextInv (scratchSwap swap rd rs1 s) := by
  unfold scratchSwap
  split
  · refine writeResult_inv ?_ rfl rd _
    exact { h with csr := { h.csr with } }
  · exact writeResult_inv h rfl _ _

theorem execCsrrw_inv (h : s.Inv) (rd rs1 : Reg) (a : CsrAddr) : NextInv (execCsrrw rd rs1 a s) := by
  unfold execCsrrw
  split
  · exact raise_inv h _ _
  · exact jalmnxtiOp_inv h rd
  · exact scratchSwap_inv h _ rd rs1
  · exact scratchSwap_inv h _ rd rs1
  next hk => exact csrOp_inv h (csrAccess_mcounteren hk) _ _ _

theorem execCsrrs_inv (h : s.Inv) (rd rs1 : Reg) (a : CsrAddr) : NextInv (execCsrrs rd rs1 a s) := by
  unfold execCsrrs
  split
  · exact raise_inv h _ _
  next hk => exact csrOp_inv h (csrAccess_mcounteren hk) _ _ _

theorem execCsrrc_inv (h : s.Inv) (rd rs1 : Reg) (a : CsrAddr) : NextInv (execCsrrc rd rs1 a s) := by
  unfold execCsrrc
  split
  · exact raise_inv h _ _
  next hk => exact csrOp_inv h (csrAccess_mcounteren hk) _ _ _

theorem pushForm_inv (h : s.Inv) (rd : Reg) (uimm : BitVec 5) (v : Word) :
    NextInv (if rd = 0#5 then pushOp uimm v s else .refused .undocumentedCsrForm) := by
  split
  · exact pushOp_inv h uimm v
  · exact nextInv_refused _

theorem execCsrrwi_inv (h : s.Inv) (rd : Reg) (uimm : BitVec 5) (a : CsrAddr) :
    NextInv (execCsrrwi rd uimm a s) := by
  unfold execCsrrwi
  split
  · exact raise_inv h _ _
  · exact pushForm_inv h rd uimm _
  · exact pushForm_inv h rd uimm _
  · exact pushForm_inv h rd uimm _
  next hk => exact csrOp_inv h (csrAccess_mcounteren hk) _ _ _

theorem execCsrrsi_inv (h : s.Inv) (rd : Reg) (uimm : BitVec 5) (a : CsrAddr) :
    NextInv (execCsrrsi rd uimm a s) := by
  unfold execCsrrsi
  split
  · exact raise_inv h _ _
  · exact mnxtiOp_inv h true rd uimm
  next hk => exact csrOp_inv h (csrAccess_mcounteren hk) _ _ _

theorem execCsrrci_inv (h : s.Inv) (rd : Reg) (uimm : BitVec 5) (a : CsrAddr) :
    NextInv (execCsrrci rd uimm a s) := by
  unfold execCsrrci
  split
  · exact raise_inv h _ _
  · exact mnxtiOp_inv h false rd uimm
  next hk => exact csrOp_inv h (csrAccess_mcounteren hk) _ _ _

/-! ## The instructions -/

theorem execEcall_inv (h : s.Inv) : NextInv (execEcall s) := by
  unfold execEcall
  split <;> exact raise_inv h _ _

theorem execWfi_inv (h : s.Inv) : NextInv (execWfi s) := by
  refine nextInv_next.2 (retire_inv ?_ rfl)
  exact { h with }

theorem execFenceI_inv (h : s.Inv) (imm : BitVec 12) (rs1 rd : Reg) : NextInv (execFenceI imm rs1 rd s) := by
  refine nextInv_next.2 (retire_inv ?_ rfl)
  exact { h with }

theorem execMret_inv (h : s.Inv) : NextInv (execMret s) := by
  unfold execMret
  split
  · exact raise_inv h _ _
  · exact nextInv_next.2 (returnFromTrap_inv h)

/-- A well-formed instruction keeps the invariant: each is one of the shared operations above. -/
theorem exec_inv {i : Instr} (hi : i.wf = true) (h : s.Inv) : NextInv (exec i s) := by
  cases i
  case lui | auipc | addi | slti | sltiu | xori | ori | andi | slli | srli | srai | add | sub | sll | slt | sltu | xor
      | srl | sra | or | and | mul | mulh | mulhsu | mulhu | div | divu | rem | remu =>
    exact writeResult_inv h (len := 4) rfl _ _
  case cAddi4spn | cAddi | cLi | cAddi16sp | cLui | cSrli | cSrai | cAndi | cSub | cXor | cOr | cAnd | cSlli | cMv
      | cAdd =>
    exact writeResult_inv h (len := 2) rfl _ _
  case jal | cJal => exact jumpAndLink_inv h (even_pcOffset h.pc hi) _ _
  case jalr | cJalr => exact jumpAndLink_inv h (even_clearBit0 _) _ _
  case cJ => exact nextInv_next.2 (retireTo_inv h (even_pcOffset h.pc hi))
  case cJr => exact nextInv_next.2 (retireTo_inv h (even_clearBit0 _))
  case beq | bne | blt | bge | bltu | bgeu => exact branchIf_inv h hi (len := 4) rfl _
  case cBeqz | cBnez => exact branchIf_inv h hi (len := 2) rfl _
  case lb | lh | lw | lbu | lhu => exact loadOp_inv h (len := 4) rfl _ _ _ _
  case cLw | cLwsp => exact loadOp_inv h (len := 2) rfl _ _ _ _
  case sb | sh | sw => exact storeOp_inv h (len := 4) rfl (by decide) _ _
  case cSw | cSwsp => exact storeOp_inv h (len := 2) rfl (by decide) _ _
  case fence => exact nextInv_next.2 (retire_inv h (len := 4) rfl)
  case cNop => exact nextInv_next.2 (retire_inv h (len := 2) rfl)
  case fenceI imm rs1 rd => exact execFenceI_inv h imm rs1 rd
  case wfi => exact execWfi_inv h
  case ecall => exact execEcall_inv h
  case ebreak | cEbreak => exact raise_inv h _ _
  case mret => exact execMret_inv h
  case csrrw => exact execCsrrw_inv h _ _ _
  case csrrs => exact execCsrrs_inv h _ _ _
  case csrrc => exact execCsrrc_inv h _ _ _
  case csrrwi => exact execCsrrwi_inv h _ _ _
  case csrrsi => exact execCsrrsi_inv h _ _ _
  case csrrci => exact execCsrrci_inv h _ _ _
  case lrW => exact loadReserve_inv h _ _
  case scW => exact storeConditional_inv h _ _ _
  case amoswapW | amoaddW | amoxorW | amoandW | amoorW | amominW | amomaxW | amominuW | amomaxuW =>
    exact atomicOp_inv h _ _ _ _

/-! ## The step -/

/-- What the fetch and the decoder answer: a stop, an exception of the instruction at pc, or an instruction. -/
theorem nextInstr_cases (s : State) :
    nextInstr s = .inl (.refused .fetchFromTimer) ∨
    (∃ code tval, nextInstr s = .inl (raise code tval s)) ∨
    ∃ e i, decodeEncoding e = .ok i ∧ nextInstr s = .inr i := by
  unfold nextInstr
  split
  · exact .inl rfl
  · exact .inr (.inl ⟨_, _, rfl⟩)
  next e _ =>
    split
    next i hd => exact .inr (.inr ⟨e, i, hd, rfl⟩)
    · exact .inr (.inl ⟨_, _, rfl⟩)

theorem runInstruction_inv (h : s.Inv) : NextInv (runInstruction s) := by
  unfold runInstruction
  rcases nextInstr_cases s with e | ⟨code, tval, e⟩ | ⟨enc, i, hd, e⟩ <;> rw [e]
  · exact nextInv_refused _
  · exact raise_inv h code tval
  · exact exec_inv (decodeEncoding_wf hd) h

theorem runAwake_inv (h : s.Inv) : NextInv (runAwake s) := by
  unfold runAwake
  split
  · exact nextInv_next.2 (enterNmi_inv h)
  split
  · split
    · exact nextInv_next.2 (enterInterrupt_inv h _)
    · exact nextInv_fault _
  · exact runInstruction_inv h

theorem runBoundary_inv (h : s.Inv) : NextInv (runBoundary s) := by
  unfold runBoundary
  split
  · exact nextInv_next.2 h
  · refine runAwake_inv ?_
    exact { h with }

theorem resetEvent_inv (h : s.Inv) : (resetEvent s).Inv :=
  { resetMeetsInvariant s.cfg h.cfg with
    csr := resetCsr_inv s.cfg s.csr
    mem := h.mem }

theorem sample_inv (h : s.Inv) : (sample s).Inv :=
  { h with eclic := sampleSources_inv s.cfg _ s.eclic h.eclic }

theorem step_inv (h : s.Inv) : NextInv (step s) := by
  unfold step
  split
  · exact nextInv_next.2 (resetEvent_inv h)
  · exact runBoundary_inv (sample_inv h)

end Ops

/-- Settles O3: the invariant passes through the sampling of the inputs, each trap entry, and each shared operation that
the instructions are made of. -/
theorem stepKeepsInvariant : Obligations.StepKeepsInvariant := fun _ t hs ht => step_inv hs t ht

end Sys2Proof.Machine
end

section
/-! PROOF. The reset values of 10_state.md R43 to R45, read through the registers of the machine. -/

namespace Sys2Proof.Machine

/-- mstatus after reset is 0 but for its irrelevant bit (11_csr.md R61). -/
theorem mstatusWord_reset (bit17 : Bool) : mstatusWord CsrFile.reset bit17 &&& 0xFFFDFFFF#32 = 0#32 := by
  cases bit17 <;> decide

/-- cliccfg after reset: no level bits. -/
theorem cliccfgByte_reset (c : Config) : cliccfgByte (Eclic.reset c) = 0x01#8 := by
  simp [cliccfgByte, Eclic.reset]

/-- clicintattr after reset: level-triggered, not vectored. -/
theorem attrByte_reset (ctlBits : Nat) : attrByte (Source.reset ctlBits) = 0xC0#8 := by
  simp [attrByte, Source.reset]

/-- The byte registers of a source after reset. -/
theorem eclicReadByte_reset (c : Config) {i k : Nat} (hi : i < c.numInterrupt) (hk : k < 4) :
    eclicReadByte c (Eclic.reset c) (0x1000 + 4 * i + k) = sourceByte (Source.reset c.clicIntCtlBits) k :=
  eclicReadByte_source c _ i k _ hk (by simp [Eclic.reset, hi])

/-- The block of a source after reset: nothing pending, enabled or configured, and in clicintctl the constant ones. -/
theorem eclicSource_reset (c : Config) {i : Nat} (hi : i < c.numInterrupt) :
    eclicReadByte c (Eclic.reset c) (0x1000 + 4 * i) = 0#8 ∧ eclicReadByte c (Eclic.reset c) (0x1001 + 4 * i) = 0#8
      ∧ eclicReadByte c (Eclic.reset c) (0x1002 + 4 * i) = 0xC0#8
      ∧ eclicReadByte c (Eclic.reset c) (0x1003 + 4 * i) ||| ctlOnes c
          = eclicReadByte c (Eclic.reset c) (0x1003 + 4 * i) := by
  have hk (k : Nat) (h : k < 4) :
      eclicReadByte c (Eclic.reset c) (0x1000 + k + 4 * i) = sourceByte (Source.reset c.clicIntCtlBits) k := by
    rw [Nat.add_right_comm]
    exact eclicReadByte_reset c hi h
  refine ⟨hk 0 (by decide), hk 1 (by decide), (hk 2 (by decide)).trans (attrByte_reset _), ?_⟩
  rw [hk 3 (by decide)]
  exact BitVec.or_self

/-- The words of the other registers of R45 after reset, and bit 0 of mtvt2. -/
theorem csrWords_reset : mcounterenWord CsrFile.reset = 0#32 ∧ bitWord CsrFile.reset.wfe = 0#32
    ∧ bitWord CsrFile.reset.sleepvalue = 0#32 ∧ CsrFile.reset.mtvt2.getLsbD 0 = false
    ∧ CsrFile.reset.mepc &&& 1#32 = 0#32 := by decide

/-- mtimecmp at its greatest value keeps the timer interrupt low (61_timer_eclic_lowpower.md R464). -/
theorem timer_reset : Timer.reset.mtimecmp = 0xFFFFFFFFFFFFFFFF#64 ∧ Timer.reset.irq = false := by decide

/-- Settles O1: mstatus, the other CSR words, the TIMER and the ECLIC by the lemmas above; the rest are fields. -/
theorem resetState : Obligations.ResetState := by
  intro c s
  obtain ⟨hcounteren, hwfe, hsleepvalue, hmtvt2, hmepc⟩ := csrWords_reset
  obtain ⟨hmtimecmp, hirq⟩ := timer_reset
  exact ⟨rfl, rfl, rfl, rfl, rfl, mstatusWord_reset _, hcounteren, hmtvt2, hwfe, hsleepvalue, rfl, hmepc, rfl, rfl,
    rfl, rfl, rfl, rfl, hmtimecmp, rfl, rfl, hirq, cliccfgByte_reset c, fun i hi => eclicSource_reset c hi⟩

end Sys2Proof.Machine
end

section
/-! PROOF. The CSRs read back (11_csr.md R50 to R95): the counters and the words of the registers with fields
after a write, then what a write leaves alone. -/

namespace Sys2Proof.Machine

/-! ## The halves of a counter (R77) -/

@[simp] theorem lowHalf_withLow (x : BitVec 64) (v : Word) : lowHalf (withLow x v) = v :=
  BitVec.extractLsb'_append_eq_right

@[simp] theorem highHalf_withLow (x : BitVec 64) (v : Word) : highHalf (withLow x v) = highHalf x :=
  BitVec.extractLsb'_append_eq_left

@[simp] theorem lowHalf_withHigh (x : BitVec 64) (v : Word) : lowHalf (withHigh x v) = lowHalf x :=
  BitVec.extractLsb'_append_eq_right

@[simp] theorem highHalf_withHigh (x : BitVec 64) (v : Word) : highHalf (withHigh x v) = v :=
  BitVec.extractLsb'_append_eq_left

/-! ## What a write leaves in the word of a register with fields

Each word is compared with the masked value bit by bit. -/

/-- wfe and sleepvalue (R93, R95). -/
theorem bitWord_bit0 (v : Word) : bitWord (v.getLsbD 0) = v &&& 1#32 := by
  rw [BitVec.and_one_eq_setWidth_ofBool_getLsbD]
  cases v.getLsbD 0 <;> rfl

theorem mcounterenWord_write (r : CsrFile) (v : Word) :
    mcounterenWord { r with counterenCy := v.getLsbD 0, counterenTm := v.getLsbD 1, counterenIr := v.getLsbD 2 }
      = v &&& 7#32 := by
  refine BitVec.eq_of_getLsbD_eq fun i hi => ?_
  simp only [mcounterenWord, BitVec.getLsbD_append, BitVec.getLsbD_and]
  interval_cases i <;> simp

theorem mcountinhibitWord_write (r : CsrFile) (v : Word) :
    mcountinhibitWord { r with inhibitCy := v.getLsbD 0, inhibitIr := v.getLsbD 2 } = v &&& 5#32 := by
  refine BitVec.eq_of_getLsbD_eq fun i hi => ?_
  simp only [mcountinhibitWord, BitVec.getLsbD_append, BitVec.getLsbD_and]
  interval_cases i <;> simp

theorem mmiscCtlWord_write (r : CsrFile) (v : Word) :
    mmiscCtlWord { r with nmiCauseFff := v.getLsbD 9 } = v &&& 0x200#32 := by
  refine BitVec.eq_of_getLsbD_eq fun i hi => ?_
  simp only [mmiscCtlWord, BitVec.getLsbD_append, BitVec.getLsbD_and]
  interval_cases i <;> simp

theorem msubmWord_writeMsubm (r : CsrFile) (v : Word) : msubmWord (writeMsubm r v) = v &&& 0x3C0#32 := by
  refine BitVec.eq_of_getLsbD_eq fun i hi => ?_
  simp only [msubmWord, writeMsubm, subModeCode_of, BitVec.getLsbD_append, BitVec.getLsbD_and,
    BitVec.getLsbD_extractLsb']
  interval_cases i <;> simp

theorem msavestatusWord_writeMsavestatus (r : CsrFile) (v : Word) :
    msavestatusWord (writeMsavestatus r v) = v &&& 0xC7C7#32 := by
  refine BitVec.eq_of_getLsbD_eq fun i hi => ?_
  simp only [msavestatusWord, writeMsavestatus, subModeCode_of, BitVec.getLsbD_append, BitVec.getLsbD_and,
    BitVec.getLsbD_extractLsb']
  interval_cases i <;> simp

/-- mcause, written with an MPP that is a mode of the core (R57, R70). -/
theorem mcauseWord_writeMcause (c : Config) (m : Bool) (r : CsrFile) (v : Word)
    (h : v.extractLsb' 28 2 = 3#2 ∨ (v.extractLsb' 28 2 = 0#2 ∧ c.hasUmode = true)) :
    mcauseWord (writeMcause c m r v) = v &&& 0xF8FF0FFF#32 := by
  refine BitVec.eq_of_getLsbD_eq fun i hi => ?_
  simp only [mcauseWord, writeMcause, loadCause, legalMpp_of_mode c m _ h, BitVec.getLsbD_append, BitVec.getLsbD_and,
    BitVec.getLsbD_extractLsb']
  interval_cases i <;> simp

/-- mstatus but for its irrelevant bit, written with an MPP that is a mode of the core: SD follows XS (R56 to R64). -/
theorem mstatusWord_writeMstatus (c : Config) (m bit17 : Bool) (r : CsrFile) (v : Word)
    (h : v.extractLsb' 11 2 = 3#2 ∨ (v.extractLsb' 11 2 = 0#2 ∧ c.hasUmode = true)) :
    mstatusWord (writeMstatus c m r v) bit17 &&& 0xFFFDFFFF#32
      = (v &&& 0x00019888#32) ||| (if v.extractLsb' 15 2 = 3#2 then 0x80000000#32 else 0#32) := by
  have hsd : (if v.extractLsb' 15 2 = 3#2 then 0x80000000#32 else 0#32)
      = BitVec.ofBool (v.extractLsb' 15 2 == 3#2) ++ 0#31 := by
    by_cases hxs : v.extractLsb' 15 2 = 3#2
    · simp [hxs]
    · simp [hxs, beq_eq_false_iff_ne.2 hxs]
  rw [hsd]
  refine BitVec.eq_of_getLsbD_eq fun i hi => ?_
  simp only [mstatusWord, writeMstatus, legalMpp_of_mode c m _ h, BitVec.getLsbD_append, BitVec.getLsbD_and,
    BitVec.getLsbD_or, BitVec.getLsbD_extractLsb']
  interval_cases i <;> simp

theorem misaWord_eq (c : Config) : misaWord c = 0x40001105#32 ||| (if c.hasUmode then 0x00100000#32 else 0#32)
    ||| (if c.misaX then 0x00800000#32 else 0#32) := by
  unfold misaWord
  cases c.hasUmode <;> cases c.misaX <;> rfl

/-- The low bits of mtvt that read 0, by the number of interrupts (R67). -/
theorem mtvtAlignBits_range (n : Nat) : ∀ p ∈ [(0, 16, 6), (17, 32, 7), (33, 64, 8), (65, 128, 9), (129, 256, 10),
    (257, 512, 11), (513, 1024, 12), (1025, 2048, 13), (2049, 4096, 14)],
    p.1 ≤ n → n ≤ p.2.1 → mtvtAlignBits n = p.2.2 := by
  simp only [List.forall_mem_cons, mtvtAlignBits]
  refine ⟨?_, ?_, ?_, ?_, ?_, ?_, ?_, ?_, ?_, List.forall_mem_nil _⟩
  all_goals
    intro hlo hhi
    split_ifs <;> omega

/-! ## What a write leaves alone -/

/-- No register shows the count of tx_evt pulses. -/
theorem csrRead_txPulses (s : State) (n : Nat) (c : Csr) : csrRead { s with txPulses := n } c = csrRead s c := by
  cases c <;> rfl

/-- A register that does not mirror the one written reads as before (R57, R78 to R80, R82): it shows other fields, or
the other half of the counter; a read-only or special register has nothing to write (R50). -/
theorem csrRead_csrWrite_of_notMem_seenIn (s : State) (v : Word) {c c' : Csr} (h : c' ∉ seenIn c) :
    csrRead (csrWrite s c v) c' = csrRead s c' := by
  cases c
  case txevt =>
    simp only [csrWrite]
    split
    · exact csrRead_txPulses s _ c'
    · rfl
  case mcycle | mcycleh | minstret | minstreth =>
    cases c' <;> simp [seenIn] at h <;> simp [csrRead, csrWrite]
  case mstatus | mcause | mtvec | mcounteren | mtvt | mtvt2 | mcountinhibit | mscratch | mepc | mtval | msubm | mmiscCtl
      | msavestatus | msaveepc1 | msavecause1 | msaveepc2 | msavecause2 | wfe | sleepvalue =>
    cases c' <;> simp [seenIn] at h <;> rfl
  all_goals rfl

/-- Only a 1 in bit 0 of txevt emits a pulse on tx_evt (R94). -/
theorem csrWrite_txPulses (s : State) (v : Word) (c : Csr) :
    (csrWrite s c v).txPulses = s.txPulses + (if c = .txevt ∧ v.getLsbD 0 = true then 1 else 0) := by
  cases c
  case txevt =>
    simp only [csrWrite, true_and]
    split <;> rfl
  all_goals rfl

/-- Settles O55: the read-only registers; the registers with a mask; mtvt, mstatus and mcause by their own layouts; and
what a write leaves alone. -/
theorem csrReadsBack : Obligations.CsrReadsBack := by
  have hall (v : Word) : v = v &&& 0xFFFFFFFF#32 := (BitVec.and_allOnes (x := v)).symm
  refine ⟨fun s => ?readOnly, fun s v => ⟨?masked, fun p hp hlo hhi => ?mtvt, fun _ => ⟨rfl, rfl⟩,
    fun hmpp => mstatusWord_writeMstatus s.cfg _ _ s.csr v hmpp,
    fun hmpp => ⟨mcauseWord_writeMcause s.cfg _ s.csr v hmpp, legalMpp_of_mode s.cfg _ _ hmpp, rfl⟩,
    fun _ _ h => csrRead_csrWrite_of_notMem_seenIn s v h, csrWrite_txPulses s v⟩⟩
  case readOnly =>
    simp only [List.forall_mem_cons]
    exact ⟨rfl, rfl, rfl, rfl, misaWord_eq s.cfg, rfl, rfl, rfl, rfl, rfl, rfl, rfl, rfl, List.forall_mem_nil _⟩
  case masked =>
    simp only [List.forall_mem_cons]
    exact ⟨hall v, hall v, hall v, rfl, rfl, rfl, rfl, rfl, msubmWord_writeMsubm s.csr v, mmiscCtlWord_write s.csr v,
      msavestatusWord_writeMsavestatus s.csr v, mcounterenWord_write s.csr v, mcountinhibitWord_write s.csr v, rfl,
      bitWord_bit0 v, bitWord_bit0 v, BitVec.and_zero.symm, (lowHalf_withLow _ v).trans (hall v),
      (highHalf_withHigh _ v).trans (hall v), (lowHalf_withLow _ v).trans (hall v),
      (highHalf_withHigh _ v).trans (hall v), List.forall_mem_nil _⟩
  case mtvt =>
    rw [← mtvtAlignBits_range _ p hp hlo hhi]
    rfl

end Sys2Proof.Machine
end

section
/-! PROOF. The fetch that finds no instruction (20_memory.md R134, 30_encoding.md R172, R188): the step that reaches it,
what the parcels at pc answer, and the exceptions 1 and 2. -/

namespace Sys2Proof.Machine

/-! ## The step reaches the instruction at pc -/

/-- With no reset, no trap due and the hart awake or waking, a step is the instruction at pc (60_exceptions.md R410). -/
theorem step_eq_runInstruction_of_goesOn {s u : State} (h : GoesOn s u) : step s = runInstruction u := by
  obtain ⟨hu, hreset, hwakes, hnmi, hint⟩ := h
  have hstays : (s.sleeping && !wakes (sample s)) = false := by
    cases hs : s.sleeping with
    | false => rfl
    | true => simp [hwakes hs]
  simp only [step, hreset, runBoundary, sample_sleeping, hstays, Bool.false_eq_true, if_false, ← hu, runAwake,
    hnmi, hint]

/-! ## What the fetch answers -/

/-- A first parcel that cannot be read decides the answer. -/
theorem fetch_first_accessFault {s : State} {a : Word} (h : fetchParcel s 0 s.pc = .accessFault a) :
    fetch s = .accessFault a := by simp [fetch, h]

theorem fetch_first_timerWindow {s : State} (h : fetchParcel s 0 s.pc = .timerWindow) : fetch s = .timerWindow := by
  simp [fetch, h]

/-- After a first parcel with low bits 11 the answer is that of the second (R172). -/
theorem fetch_second_accessFault {s : State} {low : BitVec 16} {a : Word} (hp : ParcelAt s s.pc low)
    (hl : low.extractLsb' 0 2 = 3#2) (h : fetchParcel s 1 (s.pc + 2) = .accessFault a) : fetch s = .accessFault a := by
  have hh : isHalf low = false := by simp [isHalf, hl]
  simp only [fetch, fetchParcel_parcelAt hp, hh, h, Bool.false_eq_true, if_false]

theorem fetch_second_timerWindow {s : State} {low : BitVec 16} (hp : ParcelAt s s.pc low)
    (hl : low.extractLsb' 0 2 = 3#2) (h : fetchParcel s 1 (s.pc + 2) = .timerWindow) : fetch s = .timerWindow := by
  have hh : isHalf low = false := by simp [isHalf, hl]
  simp only [fetch, fetchParcel_parcelAt hp, hh, h, Bool.false_eq_true, if_false]

theorem fetchParcel_unreadable {s : State} {a : Word} (hp : placeOf s.cfg a = .memory)
    (hr : readable s.cfg a.toNat 2 = false) (j : Nat) : fetchParcel s j a = .accessFault a := by
  simp [fetchParcel, hp, hr]

theorem fetchParcel_timer {s : State} {a : Word} {offset : Nat} (hp : placeOf s.cfg a = .timer offset) (j : Nat) :
    fetchParcel s j a = .timerWindow := by simp [fetchParcel, hp]

/-- Two parcels, the first with low bits 11, are one instruction word, the first parcel its low half. -/
theorem wordAtPc_append {s : State} {low high : BitVec 16} (hl : low.extractLsb' 0 2 = 3#2) (hp : ParcelAt s s.pc low)
    (hq : ParcelAt s (s.pc + 2) high) : WordAtPc s (.full (high ++ low)) := by
  have elow : (high ++ low).extractLsb' 0 16 = low := BitVec.extractLsb'_append_eq_right
  have ehigh : (high ++ low).extractLsb' 16 16 = high := BitVec.extractLsb'_append_eq_left
  have ebits : (high ++ low).extractLsb' 0 2 = low.extractLsb' 0 2 := by
    rw [BitVec.extractLsb'_append_eq_of_add_le (by decide)]
  refine ⟨ebits.trans hl, ?_, ?_⟩
  · rwa [elow]
  · rwa [ehigh]

/-! ## What a step without an instruction does -/

theorem runInstruction_timerWindow {s : State} (h : fetch s = .timerWindow) :
    runInstruction s = .refused .fetchFromTimer := by simp [runInstruction, nextInstr, h]

theorem runInstruction_accessFault {s : State} {a : Word} (h : fetch s = .accessFault a) :
    runInstruction s = .next (takeException s.pc codeInstrAccessFault a s) := by
  simp [runInstruction, nextInstr, h, raise_next]

theorem runInstruction_undecodable {s : State} {e : Encoding} {r : DecodeReject} (h : WordAtPc s e)
    (hd : decodeEncoding e = .error r) :
    runInstruction s = .next (takeException s.pc codeIllegalInstruction e.toWord s) := by
  simp [runInstruction, nextInstr, fetch_wordAtPc h, hd, raise_next]

theorem toWord_half (p : BitVec 16) : (Encoding.half p).toWord = 0#16 ++ p := BitVec.setWidth_eq_append (by decide)

theorem decodeEncoding_half_none {p : BitVec 16} (h : decode16 p = none) :
    decodeEncoding (.half p) = .error .illegalHalf := by simp [decodeEncoding, h]

/-- A word that no row accepts is rejected whether or not its bits 4:2 are 111 (30_encoding.md R172; log 26). -/
theorem decodeEncoding_full_none {w : Word} (h : decode32 w = none) : ∃ r, decodeEncoding (.full w) = .error r := by
  by_cases hl : w.extractLsb' 2 3 = 0b111#3
  · exact ⟨.longFormat, by simp [decodeEncoding, hl]⟩
  · exact ⟨.illegalWord, by simp [decodeEncoding, hl, h]⟩

/-- Settles O15: the step runs the instruction at pc, and the fetch or the decoder answers with the reason there is
none. -/
theorem fetchExceptions : Obligations.FetchExceptions := by
  intro s u low high offset hgo
  rw [step_eq_runInstruction_of_goesOn hgo]
  refine ⟨fun hp hr => ?first, fun hlow hl hp hr => ?second, fun hlow hl hd => ?half, fun hlow hl hhigh hd => ?word,
    fun h => ?timer⟩
  case first => exact runInstruction_accessFault (fetch_first_accessFault (fetchParcel_unreadable hp hr 0))
  case second => exact runInstruction_accessFault (fetch_second_accessFault hlow hl (fetchParcel_unreadable hp hr 1))
  case half =>
    rw [← toWord_half]
    exact runInstruction_undecodable (e := .half low) ⟨hl, hlow⟩ (decodeEncoding_half_none hd)
  case word =>
    obtain ⟨r, hr⟩ := decodeEncoding_full_none hd
    exact runInstruction_undecodable (wordAtPc_append hl hlow hhigh) hr
  case timer =>
    refine runInstruction_timerWindow ?_
    rcases h with hp | ⟨hlow, hl, hp⟩
    · exact fetch_first_timerWindow (fetchParcel_timer hp 0)
    · exact fetch_second_timerWindow hlow hl (fetchParcel_timer hp 1)

end Sys2Proof.Machine
end

section
/-! PROOF. Data accesses that fail (20_memory.md R135, R139): the misaligned ones take an exception, and the ones that the
platform answers with an error complete. -/

namespace Sys2Proof.Machine

/-- The AMOs (45_a_atomic.md R329 to R337) at the same operands. -/
def amoForms (rd rs1 rs2 : Reg) (aq rl : BitVec 1) : List Instr :=
  [.amoswapW rd rs1 rs2 aq rl, .amoaddW rd rs1 rs2 aq rl, .amoxorW rd rs1 rs2 aq rl, .amoandW rd rs1 rs2 aq rl,
   .amoorW rd rs1 rs2 aq rl, .amominW rd rs1 rs2 aq rl, .amomaxW rd rs1 rs2 aq rl, .amominuW rd rs1 rs2 aq rl,
   .amomaxuW rd rs1 rs2 aq rl]

/-- Each AMO is `atomicOp` at its own combination of the old word and the register. -/
theorem exec_amoForms {rd rs1 rs2 : Reg} {aq rl : BitVec 1} {i : Instr} (h : i ∈ amoForms rd rs1 rs2 aq rl) :
    ∃ op, ∀ s, exec i s = atomicOp op rd (getReg s rs2) (getReg s rs1) s := by
  simp only [amoForms, List.mem_cons, List.not_mem_nil, or_false] at h
  rcases h with rfl | rfl | rfl | rfl | rfl | rfl | rfl | rfl | rfl <;> exact ⟨_, fun _ => rfl⟩

/-! ## Misaligned accesses -/

section Misaligned

variable {s : State} {a : Word}

theorem aligned_eq_false_iff (a : Word) (n : Nat) : aligned a n = false ↔ a.toNat % n ≠ 0 := by simp [aligned]

theorem loadOp_misaligned {n : Nat} (h : a.toNat % n ≠ 0) (len : Word) (ext : Word → Word) (rd : Reg) :
    loadOp len n ext rd a s = .next (takeException s.pc codeLoadMisaligned a s) := by
  simp [loadOp, (aligned_eq_false_iff a n).2 h, raise_next]

theorem storeOp_misaligned {n : Nat} (h : a.toNat % n ≠ 0) (len v : Word) :
    storeOp len n v a s = .next (takeException s.pc codeStoreMisaligned a s) := by
  simp [storeOp, (aligned_eq_false_iff a n).2 h, raise_next]

theorem loadReserve_misaligned (h : a.toNat % 4 ≠ 0) (rd : Reg) :
    loadReserve rd a s = .next (takeException s.pc codeLoadMisaligned a s) := by
  simp [loadReserve, (aligned_eq_false_iff a 4).2 h, raise_next]

theorem storeConditional_misaligned (h : a.toNat % 4 ≠ 0) (rd : Reg) (v : Word) :
    storeConditional rd v a s = .next (takeException s.pc codeStoreMisaligned a s) := by
  simp [storeConditional, (aligned_eq_false_iff a 4).2 h, raise_next]

theorem atomicOp_misaligned (h : a.toNat % 4 ≠ 0) (op : Word → Word → Word) (rd : Reg) (v : Word) :
    atomicOp op rd v a s = .next (takeException s.pc codeStoreMisaligned a s) := by
  simp [atomicOp, (aligned_eq_false_iff a 4).2 h, raise_next]

/-- A push register's scaled offset keeps x2's place in its word (43_system_csr.md R300). -/
theorem pushAddress_mod_four (n : BitVec 5) : (a + 4 * n.setWidth 32).toNat % 4 = a.toNat % 4 := by bv_omega

/-- csrrwi on a push register in Machine Mode is a store of that register (43_system_csr.md R300). -/
theorem exec_csrrwi_push (hm : s.priv = .machine) (n : BitVec 5) :
    ∀ csr ∈ [0x7EB#12, 0x7EE#12, 0x7EF#12],
      ∃ v, exec (.csrrwi 0 n csr) s = storeOp 4 4 v (getReg s 2 + 4 * n.setWidth 32) s := by
  have hform {p : StoreForm} (hp : p ∈ storeForms s 0 0 0 0 0 0 0 n) :
      ∃ v, exec p.instr s = storeOp p.len p.bytes v p.addr s := ⟨p.value, (exec_storeForms hp).1⟩
  simp only [storeForms, if_pos hm, List.cons_append, List.nil_append, List.forall_mem_cons] at hform ⊢
  obtain ⟨-, -, -, -, -, hmsubm, hmcause, hmepc, -⟩ := hform
  exact ⟨hmsubm, hmcause, hmepc, List.forall_mem_nil _⟩

end Misaligned

/-- Settles O26: each load is `loadOp` or `loadReserve` at its effective address. -/
theorem misalignedReads : Obligations.MisalignedReads := by
  rintro s rd rs1 d b imm u7 u8 aq rl a c sp rfl rfl rfl
  exact ⟨fun h => ⟨loadOp_misaligned h _ _ _, loadOp_misaligned h _ _ _⟩, fun h => loadOp_misaligned h _ _ _,
    fun h => loadOp_misaligned h _ _ _, fun h => loadOp_misaligned h _ _ _, fun h => loadReserve_misaligned h _⟩

/-- Settles O27: each store is `storeOp`, `storeConditional` or `atomicOp` at its effective address. -/
theorem misalignedWrites : Obligations.MisalignedWrites := by
  rintro s rd rs1 rs2 d b imm u7 u8 aq rl n a c sp m rfl rfl rfl rfl
  refine ⟨fun h => storeOp_misaligned h _ _, fun h => storeOp_misaligned h _ _, fun h => storeOp_misaligned h _ _,
    fun h => storeOp_misaligned h _ _, fun h i hi => ?atomic, fun h hm csr hcsr => ?push⟩
  case atomic =>
    rcases List.mem_cons.1 hi with rfl | hi
    · exact storeConditional_misaligned h _ _
    · obtain ⟨op, hop⟩ := exec_amoForms hi
      exact (hop s).trans (atomicOp_misaligned h _ _ _)
  case push =>
    obtain ⟨v, hv⟩ := exec_csrrwi_push hm n csr hcsr
    exact hv.trans (storeOp_misaligned (by rwa [pushAddress_mod_four]) _ _)

/-! ## Accesses that the platform answers with an error -/

section Failing

variable {s : State} {a : Word}

/-- A write of x[rd] leaves the reservation alone, and the other way round. -/
theorem setReg_with_reservation (s : State) (rd : Reg) (v : Word) (r : Option Word) :
    { setReg s rd v with reservation := r } = setReg { s with reservation := r } rd v := by
  unfold setReg
  split <;> rfl

theorem readExtended_unreadable {n : Nat} (hp : placeOf s.cfg a = .memory) (hr : readable s.cfg a.toNat n = false)
    (ext : Word → Word) : readExtended ext s a n = (Config.freeLoad s.steps, reportError s) := by
  simp [readExtended, dataAnswer, hp, hr]

/-- A failing load writes a free value after the error is noted (R139). -/
theorem loadOp_unreadable {n : Nat} (ha : a.toNat % n = 0) (hp : placeOf s.cfg a = .memory)
    (hr : readable s.cfg a.toNat n = false) (len : Word) (ext : Word → Word) (rd : Reg) :
    loadOp len n ext rd a s = writeResult len rd (Config.freeLoad s.steps) (reportError s) := by
  simp [loadOp, (aligned_iff a n).2 ha, sizeRefused_memory hp, readExtended_unreadable hp hr, writeResult]

theorem loadReserve_unreadable (ha : a.toNat % 4 = 0) (hp : placeOf s.cfg a = .memory)
    (hr : readable s.cfg a.toNat 4 = false) (rd : Reg) :
    loadReserve rd a s
      = writeResult 4 rd (Config.freeLoad s.steps) { reportError s with reservation := some a } := by
  simp only [loadReserve, (aligned_iff a 4).2 ha, isDevice_memory hp, readData, readExtended_unreadable hp hr,
    Bool.not_true, Bool.false_eq_true, if_false, setReg_with_reservation, writeResult]

/-- What a failing write of `n` bytes at `a` leaves: free values in those bytes that the platform has, and the error
noted (R139; log 10). -/
def failedWrite (a : Word) (n : Nat) (s : State) : State :=
  reportError (storeBytes (isMapped s.cfg) a (freeBytes s.steps 0 n) s)

theorem storeMemory_unwritable {n : Nat} (hw : writable s.cfg a.toNat n = false) (v : Word) :
    storeMemory a n v s = failedWrite a n s := by simp [storeMemory, hw, failedWrite]

theorem storeOp_unwritable {n : Nat} (ha : a.toNat % n = 0) (hp : placeOf s.cfg a = .memory)
    (hw : writable s.cfg a.toNat n = false) (len v : Word) :
    storeOp len n v a s = .next (retire len (failedWrite a n s)) := by
  simp [storeOp, (aligned_iff a n).2 ha, sizeRefused_memory hp, writeData, hp, storeMemory_unwritable hw]

theorem storeConditional_unwritable (ha : a.toNat % 4 = 0) (hp : placeOf s.cfg a = .memory)
    (hres : s.reservation = some a) (hw : writable s.cfg a.toNat 4 = false) (rd : Reg) (v : Word) :
    storeConditional rd v a s = writeResult 4 rd 0#32 { failedWrite a 4 s with reservation := none } := by
  simp only [storeConditional, (aligned_iff a 4).2 ha, isDevice_memory hp, hres, storeMemory_unwritable hw,
    Bool.not_true, Bool.false_eq_true, if_false, if_true, setReg_with_reservation, writeResult]

/-- Without its reservation sc.w makes no access (45_a_atomic.md R324). -/
theorem storeConditional_unreserved (ha : a.toNat % 4 = 0) (hp : placeOf s.cfg a = .memory)
    (hres : s.reservation ≠ some a) (rd : Reg) (v : Word) :
    storeConditional rd v a s = writeResult 4 rd 1#32 { s with reservation := none } := by
  simp only [storeConditional, (aligned_iff a 4).2 ha, isDevice_memory hp, hres, Bool.not_true, Bool.false_eq_true,
    if_false, setReg_with_reservation, writeResult]

theorem atomicOp_failing (ha : a.toNat % 4 = 0) (hp : placeOf s.cfg a = .memory)
    (hf : readable s.cfg a.toNat 4 = false ∨ writable s.cfg a.toNat 4 = false) (op : Word → Word → Word) (rd : Reg)
    (v : Word) : atomicOp op rd v a s = writeResult 4 rd (Config.freeLoad s.steps) (failedWrite a 4 s) := by
  have hf' : (readable s.cfg a.toNat 4 && writable s.cfg a.toNat 4) = false := Bool.and_eq_false_iff.2 hf
  simp [atomicOp, (aligned_iff a 4).2 ha, isDevice_memory hp, hf', writeResult, failedWrite]

/-- An instruction that writes x[rd] and retires after a failing write, whatever becomes of the reservation. -/
theorem failsWriting_of_computesOnly {n : Nat} {len v : Word} {rd : Reg} {r : Option Word} {t : State}
    (h : ComputesOnly len rd v { failedWrite a n s with reservation := r } t) :
    FailsWriting len a n s t ∧ Wrote rd v t ∧ SameRegsBut rd s t ∧ t.reservation = r := by
  obtain ⟨hwrote, hregs, hpc, hcount, hmem, hcontrol, ⟨htimer, heclic, hres⟩, -, herrors⟩ := h
  refine ⟨⟨herrors, fun b hb => ?outside, fun b hb => ?unmapped, hpc, hcount, hcontrol, htimer, heclic⟩, hwrote, hregs,
    hres⟩
  case outside =>
    have hb' : b < a.toNat ∨ a.toNat + (freeBytes s.steps 0 n).length ≤ b := by simpa using hb
    exact (hmem b).trans (storeBytes_sameMemoryBut _ a _ s b hb')
  case unmapped => exact (hmem b).trans (Memory.read_writeWhere_not _ s.mem a.toNat b _ hb)

end Failing

/-- Settles O28: the load goes on from the state with the error noted, and lr.w from that with its reservation. -/
theorem failingLoadCompletes : Obligations.FailingLoadCompletes := by
  rintro s rd rs1 imm d b u7 u8 aq rl a rfl
  refine ⟨fun p hp hplace ha hr => ?load, fun hplace ha hr => ?reserve⟩
  case load =>
    obtain ⟨t, ht, hwrote, hregs, hpc, hcount, hmem, hcontrol, hdevices, hlog, herrors⟩ :=
      writeResult_next p.len p.rd (Config.freeLoad s.steps) (reportError s)
    refine ⟨t, _, ?_, herrors, hwrote, hregs, hpc, hcount, hmem, hcontrol, hdevices, hlog⟩
    rw [(exec_loadForms hp).1, loadOp_unreadable ha hplace hr, ht]
  case reserve =>
    obtain ⟨t, ht, hwrote, hregs, hpc, hcount, hmem, hcontrol, ⟨htimer, heclic, hres⟩, hlog, herrors⟩ :=
      writeResult_next 4 rd (Config.freeLoad s.steps) { reportError s with reservation := some (getReg s rs1) }
    exact ⟨t, _, (loadReserve_unreadable ha hplace hr rd).trans ht, herrors, hwrote, hregs, hpc, hcount, hmem, hcontrol,
      htimer, heclic, hres, hlog⟩

/-- Settles O29: every failing write leaves `failedWrite`, from which the instruction goes on. -/
theorem failingStoreCompletes : Obligations.FailingStoreCompletes := by
  rintro s rd rs1 rs2 imm d b u7 u8 n aq rl a rfl
  refine ⟨fun p hp hplace ha hw => ?store, fun hplace ha => ⟨fun hres hw => ?reserved, fun hres => ?unreserved,
    fun hf i hi => ?amo⟩⟩
  case store =>
    obtain ⟨hfails, -, -, hres⟩ := failsWriting_of_computesOnly
      (retireTo_changesOnly (s.pc + p.len) { failedWrite p.addr p.bytes s with reservation := s.reservation })
    refine ⟨_, ?_, hfails, sameRegs_of_regs rfl, hres⟩
    rw [(exec_storeForms hp).1, storeOp_unwritable ha hplace hw]
    rfl
  case reserved =>
    obtain ⟨t, ht, hc⟩ := writeResult_next 4 rd 0#32 { failedWrite (getReg s rs1) 4 s with reservation := none }
    obtain ⟨hfails, hwrote, hregs, hnone⟩ := failsWriting_of_computesOnly hc
    exact ⟨t, (storeConditional_unwritable ha hplace hres hw rd _).trans ht, hfails, hwrote, hregs, hnone⟩
  case unreserved =>
    obtain ⟨t, ht, hc⟩ := writeResult_next 4 rd 1#32 { s with reservation := none }
    exact ⟨t, (storeConditional_unreserved ha hplace hres rd _).trans ht, hc⟩
  case amo =>
    obtain ⟨op, hop⟩ := exec_amoForms hi
    obtain ⟨t, ht, hc⟩ := writeResult_next 4 rd (Config.freeLoad s.steps) (failedWrite (getReg s rs1) 4 s)
    obtain ⟨hfails, hwrote, hregs, hres⟩ :=
      failsWriting_of_computesOnly (a := getReg s rs1) (n := 4) (r := s.reservation) hc
    exact ⟨t, _, (hop s).trans ((atomicOp_failing ha hplace hf op rd _).trans ht), hfails, hwrote, hregs, hres⟩

end Sys2Proof.Machine
end

section
/-! PROOF. A 32-bit word that decodes is the encoding of its instruction (30_encoding.md R173 to R189): each format read
back from its own fields, then one lemma for each opcode. -/

namespace Sys2Proof

/-! ## The 32-bit formats of a word's own fields -/

theorem encR_of_fields {w : Word} {f7 : BitVec 7} {f3 : BitVec 3} {op : BitVec 7} (h7 : fieldFunct7 w = f7)
    (h3 : fieldFunct3 w = f3) (ho : fieldOpcode w = op) :
    encR f7 (fieldRs2 w) (fieldRs1 w) f3 (fieldRd w) op = w := by
  subst h7 h3 ho
  refine BitVec.eq_of_getLsbD_eq fun i hi => ?_
  interval_cases i <;>
    simp only [encR, fieldFunct7, fieldRs2, fieldRs1, fieldFunct3, fieldRd, fieldOpcode, BitVec.getLsbD_extractLsb',
      BitVec.getLsbD_append] <;> rfl

theorem encI_of_fields {w : Word} {f3 : BitVec 3} {op : BitVec 7} (h3 : fieldFunct3 w = f3)
    (ho : fieldOpcode w = op) : encI (immI w) (fieldRs1 w) f3 (fieldRd w) op = w := by
  subst h3 ho
  refine BitVec.eq_of_getLsbD_eq fun i hi => ?_
  interval_cases i <;>
    simp only [encI, immI, fieldRs1, fieldFunct3, fieldRd, fieldOpcode, BitVec.getLsbD_extractLsb',
      BitVec.getLsbD_append] <;> rfl

/-- The three fields of fence are the I-immediate field (R270). -/
theorem fence_fields_append (w : Word) :
    w.extractLsb' 28 4 ++ w.extractLsb' 24 4 ++ w.extractLsb' 20 4 = immI w := by
  refine BitVec.eq_of_getLsbD_eq fun i hi => ?_
  interval_cases i <;> simp only [immI, BitVec.getLsbD_extractLsb', BitVec.getLsbD_append] <;> rfl

theorem encS_of_fields {w : Word} {f3 : BitVec 3} (h3 : fieldFunct3 w = f3) (ho : fieldOpcode w = 0b0100011#7) :
    encS (immS w) (fieldRs2 w) (fieldRs1 w) f3 = w := by
  subst h3
  rw [encS, ← ho]
  refine BitVec.eq_of_getLsbD_eq fun i hi => ?_
  interval_cases i <;>
    simp only [immS, fieldRs2, fieldRs1, fieldFunct3, fieldOpcode, BitVec.getLsbD_extractLsb',
      BitVec.getLsbD_append] <;> rfl

theorem encB_of_fields {w : Word} {f3 : BitVec 3} (h3 : fieldFunct3 w = f3) (ho : fieldOpcode w = 0b1100011#7) :
    encB (immB w) (fieldRs2 w) (fieldRs1 w) f3 = w := by
  subst h3
  rw [encB, ← ho]
  refine BitVec.eq_of_getLsbD_eq fun i hi => ?_
  interval_cases i <;>
    simp only [immB, fieldRs2, fieldRs1, fieldFunct3, fieldOpcode, BitVec.getLsbD_extractLsb',
      BitVec.getLsbD_append] <;> rfl

theorem encU_of_fields {w : Word} {op : BitVec 7} (ho : fieldOpcode w = op) :
    encU (immU w) (fieldRd w) op = w := by
  subst ho
  refine BitVec.eq_of_getLsbD_eq fun i hi => ?_
  interval_cases i <;>
    simp only [encU, immU, fieldRd, fieldOpcode, BitVec.getLsbD_extractLsb', BitVec.getLsbD_append] <;> rfl

theorem encJ_of_fields {w : Word} (ho : fieldOpcode w = 0b1101111#7) : encJ (immJ w) (fieldRd w) = w := by
  rw [encJ, ← ho]
  refine BitVec.eq_of_getLsbD_eq fun i hi => ?_
  interval_cases i <;>
    simp only [immJ, fieldRd, fieldOpcode, BitVec.getLsbD_extractLsb', BitVec.getLsbD_append] <;> rfl

theorem encA_of_fields {w : Word} {f5 : BitVec 5} {rs2 : Reg} (h5 : w.extractLsb' 27 5 = f5)
    (h2 : fieldRs2 w = rs2) (h3 : fieldFunct3 w = 0b010#3) (ho : fieldOpcode w = 0b0101111#7) :
    encA f5 (w.extractLsb' 26 1) (w.extractLsb' 25 1) rs2 (fieldRs1 w) (fieldRd w) = w := by
  subst h5 h2
  rw [encA, ← h3, ← ho]
  refine BitVec.eq_of_getLsbD_eq fun i hi => ?_
  interval_cases i <;>
    simp only [fieldRs2, fieldRs1, fieldFunct3, fieldRd, fieldOpcode, BitVec.getLsbD_extractLsb',
      BitVec.getLsbD_append] <;> rfl

/-! ## The opcodes -/

theorem encode_of_decodeBranch {w : Word} {i : Instr} (ho : fieldOpcode w = 0b1100011#7)
    (h : decodeBranch w = some i) : encode i = .full w := by
  unfold decodeBranch at h
  split at h <;> cases h
  all_goals next h3 => exact congrArg Encoding.full (encB_of_fields h3 ho)

theorem encode_of_decodeLoad {w : Word} {i : Instr} (ho : fieldOpcode w = 0b0000011#7)
    (h : decodeLoad w = some i) : encode i = .full w := by
  unfold decodeLoad at h
  split at h <;> cases h
  all_goals next h3 => exact congrArg Encoding.full (encI_of_fields h3 ho)

theorem encode_of_decodeStore {w : Word} {i : Instr} (ho : fieldOpcode w = 0b0100011#7)
    (h : decodeStore w = some i) : encode i = .full w := by
  unfold decodeStore at h
  split at h <;> cases h
  all_goals next h3 => exact congrArg Encoding.full (encS_of_fields h3 ho)

theorem encode_of_decodeOpImm {w : Word} {i : Instr} (ho : fieldOpcode w = 0b0010011#7)
    (h : decodeOpImm w = some i) : encode i = .full w := by
  unfold decodeOpImm at h
  split at h
  case h_7 h3 =>
    split at h <;> cases h
    next h7 => exact congrArg Encoding.full (encR_of_fields h7 h3 ho)
  case h_8 h3 =>
    split at h
    · next h7 => cases h; exact congrArg Encoding.full (encR_of_fields h7 h3 ho)
    · split at h <;> cases h
      next h7 => exact congrArg Encoding.full (encR_of_fields h7 h3 ho)
  all_goals next h3 => cases h; exact congrArg Encoding.full (encI_of_fields h3 ho)

theorem encode_of_decodeOp {w : Word} {i : Instr} (ho : fieldOpcode w = 0b0110011#7)
    (h : decodeOp w = some i) : encode i = .full w := by
  unfold decodeOp at h
  split at h <;> cases h
  all_goals next h7 h3 => exact congrArg Encoding.full (encR_of_fields h7 h3 ho)

theorem encode_of_decodeMiscMem {w : Word} {i : Instr} (ho : fieldOpcode w = 0b0001111#7)
    (h : decodeMiscMem w = some i) : encode i = .full w := by
  unfold decodeMiscMem at h
  split at h <;> cases h
  · next h3 => rw [encode, fence_fields_append, encI_of_fields h3 ho]
  · next h3 => exact congrArg Encoding.full (encI_of_fields h3 ho)

theorem encode_of_decodeAmo {w : Word} {i : Instr} (ho : fieldOpcode w = 0b0101111#7)
    (h : decodeAmo w = some i) : encode i = .full w := by
  unfold decodeAmo at h
  split at h
  case isFalse => cases h
  next h3 =>
    split at h
    case h_1 h5 =>
      split at h <;> cases h
      next h2 => exact congrArg Encoding.full (encA_of_fields h5 h2 h3 ho)
    all_goals cases h
    all_goals next h5 => exact congrArg Encoding.full (encA_of_fields h5 rfl h3 ho)

theorem encode_of_decodeSystem {w : Word} {i : Instr} (ho : fieldOpcode w = 0b1110011#7)
    (h : decodeSystem w = some i) : encode i = .full w := by
  unfold decodeSystem at h
  split at h
  case h_1 =>
    repeat' split at h
    all_goals cases h
    all_goals next hw => exact congrArg Encoding.full hw.symm
  all_goals cases h
  all_goals next h3 => exact congrArg Encoding.full (encI_of_fields h3 ho)

theorem encode_of_decode32 {w : Word} {i : Instr} (h : decode32 w = some i) : encode i = .full w := by
  unfold decode32 at h
  split at h
  case h_1 ho => cases h; exact congrArg Encoding.full (encU_of_fields ho)
  case h_2 ho => cases h; exact congrArg Encoding.full (encU_of_fields ho)
  case h_3 ho => cases h; exact congrArg Encoding.full (encJ_of_fields ho)
  case h_4 ho =>
    split at h <;> cases h
    next h3 => exact congrArg Encoding.full (encI_of_fields h3 ho)
  case h_5 ho => exact encode_of_decodeBranch ho h
  case h_6 ho => exact encode_of_decodeLoad ho h
  case h_7 ho => exact encode_of_decodeStore ho h
  case h_8 ho => exact encode_of_decodeOpImm ho h
  case h_9 ho => exact encode_of_decodeOp ho h
  case h_10 ho => exact encode_of_decodeMiscMem ho h
  case h_11 ho => exact encode_of_decodeAmo ho h
  case h_12 ho => exact encode_of_decodeSystem ho h
  case h_13 => cases h

end Sys2Proof
end

section
/-! PROOF. A 16-bit word that decodes is the encoding of its instruction (30_encoding.md R183 to R187): each format read
back from its own fields, then one lemma for each quadrant. -/

namespace Sys2Proof

/-! ## The 16-bit formats of a parcel's own fields -/

theorem encCiw_of_fields {p : BitVec 16} (hq : p.extractLsb' 0 2 = 0b00#2) (h3 : cFunct3 p = 0b000#3) :
    encCiw (cLo p) (immCiw p) = p := by
  rw [encCiw, ← hq, ← h3]
  refine BitVec.eq_of_getLsbD_eq fun i hi => ?_
  interval_cases i <;>
    simp only [immCiw, cLo, cFunct3, BitVec.getLsbD_extractLsb', BitVec.getLsbD_append] <;> rfl

theorem encCls_of_fields {p : BitVec 16} {f3 : BitVec 3} (hq : p.extractLsb' 0 2 = 0b00#2) (h3 : cFunct3 p = f3) :
    encCls f3 (cHi p) (cLo p) (immCl p) = p := by
  rw [encCls, ← hq, ← h3]
  refine BitVec.eq_of_getLsbD_eq fun i hi => ?_
  interval_cases i <;>
    simp only [immCl, cHi, cLo, cFunct3, BitVec.getLsbD_extractLsb', BitVec.getLsbD_append] <;> rfl

theorem encCi_of_fields {p : BitVec 16} {f3 : BitVec 3} {rd : Reg} {q : BitVec 2} (hq : p.extractLsb' 0 2 = q)
    (h3 : cFunct3 p = f3) (hd : cRd p = rd) : encCi f3 (immCi p) rd q = p := by
  rw [encCi, ← hq, ← h3, ← hd]
  refine BitVec.eq_of_getLsbD_eq fun i hi => ?_
  interval_cases i <;>
    simp only [immCi, cRd, cFunct3, BitVec.getLsbD_extractLsb', BitVec.getLsbD_append] <;> rfl

theorem encCj_of_fields {p : BitVec 16} {f3 : BitVec 3} (hq : p.extractLsb' 0 2 = 0b01#2) (h3 : cFunct3 p = f3) :
    encCj f3 (immCj p) = p := by
  rw [encCj, ← hq, ← h3]
  refine BitVec.eq_of_getLsbD_eq fun i hi => ?_
  interval_cases i <;>
    simp only [immCj, cFunct3, BitVec.getLsbD_extractLsb', BitVec.getLsbD_append] <;> rfl

theorem encCb_of_fields {p : BitVec 16} {f3 : BitVec 3} (hq : p.extractLsb' 0 2 = 0b01#2) (h3 : cFunct3 p = f3) :
    encCb f3 (cHi p) (immCb p) = p := by
  rw [encCb, ← hq, ← h3]
  refine BitVec.eq_of_getLsbD_eq fun i hi => ?_
  interval_cases i <;>
    simp only [immCb, cHi, cFunct3, BitVec.getLsbD_extractLsb', BitVec.getLsbD_append] <;> rfl

theorem encC16sp_of_fields {p : BitVec 16} (hq : p.extractLsb' 0 2 = 0b01#2) (h3 : cFunct3 p = 0b011#3)
    (hd : cRd p = 2#5) : encC16sp (immC16sp p) = p := by
  rw [encC16sp, ← hq, ← h3, ← hd]
  refine BitVec.eq_of_getLsbD_eq fun i hi => ?_
  interval_cases i <;>
    simp only [immC16sp, cRd, cFunct3, BitVec.getLsbD_extractLsb', BitVec.getLsbD_append] <;> rfl

theorem encCshift_of_fields {p : BitVec 16} {f2 : BitVec 2} (hq : p.extractLsb' 0 2 = 0b01#2)
    (h3 : cFunct3 p = 0b100#3) (h2 : p.extractLsb' 10 2 = f2) (hb : cBit12 p = 0#1) :
    encCshift f2 (cHi p) (cRs2 p) = p := by
  rw [encCshift, ← hq, ← h3, ← h2, ← hb]
  refine BitVec.eq_of_getLsbD_eq fun i hi => ?_
  interval_cases i <;>
    simp only [cHi, cRs2, cBit12, cFunct3, BitVec.getLsbD_extractLsb', BitVec.getLsbD_append] <;> rfl

theorem encCandi_of_fields {p : BitVec 16} (hq : p.extractLsb' 0 2 = 0b01#2) (h3 : cFunct3 p = 0b100#3)
    (h2 : p.extractLsb' 10 2 = 0b10#2) : encCandi (cHi p) (immCi p) = p := by
  rw [encCandi, ← hq, ← h3, ← h2]
  refine BitVec.eq_of_getLsbD_eq fun i hi => ?_
  interval_cases i <;>
    simp only [immCi, cHi, cFunct3, BitVec.getLsbD_extractLsb', BitVec.getLsbD_append] <;> rfl

theorem encCa_of_fields {p : BitVec 16} {f2 : BitVec 2} (hq : p.extractLsb' 0 2 = 0b01#2)
    (h3 : cFunct3 p = 0b100#3) (hb : cBit12 p = 0#1) (h11 : p.extractLsb' 10 2 = 0b11#2)
    (h2 : p.extractLsb' 5 2 = f2) : encCa f2 (cHi p) (cLo p) = p := by
  have hop : 0b100011#6 = cFunct3 p ++ cBit12 p ++ p.extractLsb' 10 2 := by rw [h3, hb, h11]; rfl
  rw [encCa, hop, ← hq, ← h2]
  refine BitVec.eq_of_getLsbD_eq fun i hi => ?_
  interval_cases i <;>
    simp only [cHi, cLo, cBit12, cFunct3, BitVec.getLsbD_extractLsb', BitVec.getLsbD_append] <;> rfl

theorem encCslli_of_fields {p : BitVec 16} (hq : p.extractLsb' 0 2 = 0b10#2) (h3 : cFunct3 p = 0b000#3)
    (hb : cBit12 p = 0#1) : encCslli (cRd p) (cRs2 p) = p := by
  rw [encCslli, ← hq, ← h3, ← hb]
  refine BitVec.eq_of_getLsbD_eq fun i hi => ?_
  interval_cases i <;>
    simp only [cRd, cRs2, cBit12, cFunct3, BitVec.getLsbD_extractLsb', BitVec.getLsbD_append] <;> rfl

theorem encClwsp_of_fields {p : BitVec 16} (hq : p.extractLsb' 0 2 = 0b10#2) (h3 : cFunct3 p = 0b010#3) :
    encClwsp (cRd p) (immClwsp p) = p := by
  rw [encClwsp, ← hq, ← h3]
  refine BitVec.eq_of_getLsbD_eq fun i hi => ?_
  interval_cases i <;>
    simp only [immClwsp, cRd, cFunct3, BitVec.getLsbD_extractLsb', BitVec.getLsbD_append] <;> rfl

theorem encCr_of_fields {p : BitVec 16} {f4 : BitVec 4} {rd rs2 : Reg} (hq : p.extractLsb' 0 2 = 0b10#2)
    (h4 : cFunct3 p ++ cBit12 p = f4) (hd : cRd p = rd) (h2 : cRs2 p = rs2) : encCr f4 rd rs2 = p := by
  rw [encCr, ← hq, ← h4, ← hd, ← h2]
  refine BitVec.eq_of_getLsbD_eq fun i hi => ?_
  interval_cases i <;>
    simp only [cRd, cRs2, cBit12, cFunct3, BitVec.getLsbD_extractLsb', BitVec.getLsbD_append] <;> rfl

theorem encCss_of_fields {p : BitVec 16} (hq : p.extractLsb' 0 2 = 0b10#2) (h3 : cFunct3 p = 0b110#3) :
    encCss (cRs2 p) (immCss p) = p := by
  rw [encCss, ← hq, ← h3]
  refine BitVec.eq_of_getLsbD_eq fun i hi => ?_
  interval_cases i <;>
    simp only [immCss, cRs2, cFunct3, BitVec.getLsbD_extractLsb', BitVec.getLsbD_append] <;> rfl

/-! ## The quadrants -/

/-- The value left over by a match on a 2-bit field that names the three others. -/
theorem eq_three_of_ne : ∀ x : BitVec 2, x ≠ 0b00#2 → x ≠ 0b01#2 → x ≠ 0b10#2 → x = 0b11#2 := by decide

/-- The value left over by the match on funct3 in quadrant 1. -/
theorem eq_seven_of_ne : ∀ x : BitVec 3, x ≠ 0b000#3 → x ≠ 0b001#3 → x ≠ 0b010#3 → x ≠ 0b011#3 → x ≠ 0b100#3 →
    x ≠ 0b101#3 → x ≠ 0b110#3 → x = 0b111#3 := by bv_omega

theorem encode_of_decodeQ0 {p : BitVec 16} {i : Instr} (hq : p.extractLsb' 0 2 = 0b00#2)
    (h : decodeQ0 p = some i) : encode i = .half p := by
  unfold decodeQ0 at h
  split at h
  · next h3 =>
    split at h <;> cases h
    exact congrArg Encoding.half (encCiw_of_fields hq h3)
  · next h3 => cases h; exact congrArg Encoding.half (encCls_of_fields hq h3)
  · next h3 => cases h; exact congrArg Encoding.half (encCls_of_fields hq h3)
  · cases h

theorem encode_of_decodeQ1Alu {p : BitVec 16} {i : Instr} (hq : p.extractLsb' 0 2 = 0b01#2)
    (h3 : cFunct3 p = 0b100#3) (h : decodeQ1Alu p = some i) : encode i = .half p := by
  unfold decodeQ1Alu at h
  split at h
  · next h2 =>
    split at h <;> cases h
    next hb => exact congrArg Encoding.half (encCshift_of_fields hq h3 h2 hb)
  · next h2 =>
    split at h <;> cases h
    next hb => exact congrArg Encoding.half (encCshift_of_fields hq h3 h2 hb)
  · next h2 => cases h; exact congrArg Encoding.half (encCandi_of_fields hq h3 h2)
  · next n0 n1 n2 =>
    have h11 := eq_three_of_ne _ n0 n1 n2
    split at h
    case isFalse => cases h
    next hb =>
      split at h <;> cases h
      case h_4 m0 m1 m2 =>
        exact congrArg Encoding.half (encCa_of_fields hq h3 hb h11 (eq_three_of_ne _ m0 m1 m2))
      all_goals next h2 => exact congrArg Encoding.half (encCa_of_fields hq h3 hb h11 h2)

theorem encode_of_decodeQ1Lui {p : BitVec 16} {i : Instr} (hq : p.extractLsb' 0 2 = 0b01#2)
    (h3 : cFunct3 p = 0b011#3) (h : decodeQ1Lui p = some i) : encode i = .half p := by
  unfold decodeQ1Lui at h
  split at h
  · next hd =>
    split at h <;> cases h
    exact congrArg Encoding.half (encC16sp_of_fields hq h3 hd)
  · split at h <;> cases h
    exact congrArg Encoding.half (encCi_of_fields hq h3 rfl)

theorem encode_of_decodeQ1 {p : BitVec 16} {i : Instr} (hq : p.extractLsb' 0 2 = 0b01#2)
    (h : decodeQ1 p = some i) : encode i = .half p := by
  unfold decodeQ1 at h
  split at h
  · next h3 =>
    split at h <;> cases h
    · next hd => exact congrArg Encoding.half (encCi_of_fields hq h3 hd)
    · exact congrArg Encoding.half (encCi_of_fields hq h3 rfl)
  · next h3 => cases h; exact congrArg Encoding.half (encCj_of_fields hq h3)
  · next h3 => cases h; exact congrArg Encoding.half (encCi_of_fields hq h3 rfl)
  · next h3 => exact encode_of_decodeQ1Lui hq h3 h
  · next h3 => exact encode_of_decodeQ1Alu hq h3 h
  · next h3 => cases h; exact congrArg Encoding.half (encCj_of_fields hq h3)
  · next h3 => cases h; exact congrArg Encoding.half (encCb_of_fields hq h3)
  · next n0 n1 n2 n3 n4 n5 n6 =>
    cases h
    exact congrArg Encoding.half (encCb_of_fields hq (eq_seven_of_ne _ n0 n1 n2 n3 n4 n5 n6))

/-- c.ebreak is the word of c.add with both registers x0 (R364). -/
theorem encode_cEbreak : encode .cEbreak = .half (encCr 0b1001#4 0#5 0#5) := by decide

theorem encode_of_decodeQ2Jump {p : BitVec 16} {i : Instr} (hq : p.extractLsb' 0 2 = 0b10#2)
    (h3 : cFunct3 p = 0b100#3) (h : decodeQ2Jump p = some i) : encode i = .half p := by
  unfold decodeQ2Jump at h
  split at h
  · next hb =>
    have h4 : cFunct3 p ++ cBit12 p = 0b1000#4 := by rw [h3, hb]; rfl
    split at h
    · next h2 =>
      split at h <;> cases h
      exact congrArg Encoding.half (encCr_of_fields hq h4 rfl h2)
    · cases h; exact congrArg Encoding.half (encCr_of_fields hq h4 rfl rfl)
  · next hb =>
    have h4 : cFunct3 p ++ cBit12 p = 0b1001#4 := by
      rw [h3, (BitVec.eq_zero_or_eq_one (cBit12 p)).resolve_left hb]; rfl
    split at h
    · next h2 =>
      split at h <;> cases h
      · next hd => rw [encode_cEbreak, encCr_of_fields hq h4 hd h2]
      · exact congrArg Encoding.half (encCr_of_fields hq h4 rfl h2)
    · cases h; exact congrArg Encoding.half (encCr_of_fields hq h4 rfl rfl)

theorem encode_of_decodeQ2 {p : BitVec 16} {i : Instr} (hq : p.extractLsb' 0 2 = 0b10#2)
    (h : decodeQ2 p = some i) : encode i = .half p := by
  unfold decodeQ2 at h
  split at h
  · next h3 =>
    split at h <;> cases h
    next hb => exact congrArg Encoding.half (encCslli_of_fields hq h3 hb)
  · next h3 =>
    split at h <;> cases h
    exact congrArg Encoding.half (encClwsp_of_fields hq h3)
  · next h3 => exact encode_of_decodeQ2Jump hq h3 h
  · next h3 => cases h; exact congrArg Encoding.half (encCss_of_fields hq h3)
  · cases h

theorem encode_of_decode16 {p : BitVec 16} {i : Instr} (h : decode16 p = some i) : encode i = .half p := by
  unfold decode16 at h
  split at h
  · next hq => exact encode_of_decodeQ0 hq h
  · next hq => exact encode_of_decodeQ1 hq h
  · next hq => exact encode_of_decodeQ2 hq h
  · cases h

end Sys2Proof
end

section
/-! PROOF. The decoder and the encoder are inverse to each other (30_encoding.md R170 to R173, 20_memory.md R131): the
words first, then the bytes. -/

namespace Sys2Proof

/-- What the decoder makes of an encoding comes from decode16 or decode32. -/
theorem decodeEncoding_ok {e : Encoding} {i : Instr} (h : decodeEncoding e = .ok i) :
    (∃ p, e = .half p ∧ decode16 p = some i) ∨ ∃ w, e = .full w ∧ decode32 w = some i := by
  unfold decodeEncoding at h
  split at h
  · split at h <;> cases h
    next p _ hd => exact .inl ⟨p, rfl, hd⟩
  · split at h
    · cases h
    · split at h <;> cases h
      next w _ _ hd => exact .inr ⟨w, rfl, hd⟩

/-- Settles O6: what decodes is well-formed, and each parcel or word is rebuilt from the fields the decoder read. -/
theorem encodeOfDecode : Obligations.EncodeOfDecode := by
  intro e i h
  refine ⟨decodeEncoding_wf h, ?_⟩
  obtain ⟨p, rfl, hd⟩ | ⟨w, rfl, hd⟩ := decodeEncoding_ok h
  · exact encode_of_decode16 hd
  · exact encode_of_decode32 hd

/-! ## The bytes of an encoding (R131, R170 to R172) -/

theorem isHalf_of_decode16 {p : BitVec 16} {i : Instr} (h : decode16 p = some i) : isHalf p = true := by
  unfold decode16 at h
  split at h
  case h_4 => cases h
  all_goals next hq => rw [isHalf, hq]; decide

/-- Every opcode of a 32-bit word ends in 11. -/
theorem opcode_low_of_decode32 {w : Word} {i : Instr} (h : decode32 w = some i) :
    (fieldOpcode w).extractLsb' 0 2 = 0b11#2 := by
  unfold decode32 at h
  split at h
  case h_13 => cases h
  all_goals next ho => rw [ho]; decide

/-- The first parcel of a 32-bit word that decodes is no 16-bit instruction. -/
theorem isHalf_of_decode32 {w : Word} {i : Instr} (h : decode32 w = some i) :
    isHalf (w.extractLsb' 8 8 ++ w.extractLsb' 0 8) = false := by
  have hlow : (w.extractLsb' 8 8 ++ w.extractLsb' 0 8).extractLsb' 0 2 = (fieldOpcode w).extractLsb' 0 2 := by
    refine BitVec.eq_of_getLsbD_eq fun k hk => ?_
    interval_cases k <;> simp only [fieldOpcode, BitVec.getLsbD_extractLsb', BitVec.getLsbD_append] <;> rfl
  rw [isHalf, hlow, opcode_low_of_decode32 h]
  decide

theorem halfBytes_append (p : BitVec 16) : p.extractLsb' 8 8 ++ p.extractLsb' 0 8 = p := by
  refine BitVec.eq_of_getLsbD_eq fun i hi => ?_
  interval_cases i <;> simp only [BitVec.getLsbD_extractLsb', BitVec.getLsbD_append] <;> rfl

theorem fullBytes_append (w : Word) :
    w.extractLsb' 24 8 ++ w.extractLsb' 16 8 ++ w.extractLsb' 8 8 ++ w.extractLsb' 0 8 = w := by
  refine BitVec.eq_of_getLsbD_eq fun i hi => ?_
  interval_cases i <;> simp only [BitVec.getLsbD_extractLsb', BitVec.getLsbD_append] <;> rfl

/-- The decoder finds an encoding that decodes at the head of its bytes, and takes no more of them. -/
theorem decode_bytes {e : Encoding} {i : Instr} (h : decodeEncoding e = .ok i) (rest : List Byte) :
    decode (e.bytes ++ rest) = .ok (i, rest) := by
  obtain ⟨p, rfl, hd⟩ | ⟨w, rfl, hd⟩ := decodeEncoding_ok h
  · simp [Encoding.bytes, decode, isHalf_of_decode16 hd, halfBytes_append, h]
  · simp [Encoding.bytes, decode, isHalf_of_decode32 hd, fullBytes_append, h]

end Sys2Proof

namespace Sys2Proof.Laws.DecodeOfEncode

/-- Every well-formed instruction is what its encoding decodes to. -/
theorem forall_statement : ∀ i : Instr, Statement i
  | .lui _ _ => lui _ _
  | .auipc _ _ => auipc _ _
  | .addi _ _ _ => addi _ _ _
  | .slti _ _ _ => slti _ _ _
  | .sltiu _ _ _ => sltiu _ _ _
  | .xori _ _ _ => xori _ _ _
  | .ori _ _ _ => ori _ _ _
  | .andi _ _ _ => andi _ _ _
  | .slli _ _ _ => slli _ _ _
  | .srli _ _ _ => srli _ _ _
  | .srai _ _ _ => srai _ _ _
  | .add _ _ _ => add _ _ _
  | .sub _ _ _ => sub _ _ _
  | .sll _ _ _ => sll _ _ _
  | .slt _ _ _ => slt _ _ _
  | .sltu _ _ _ => sltu _ _ _
  | .xor _ _ _ => xor _ _ _
  | .srl _ _ _ => srl _ _ _
  | .sra _ _ _ => sra _ _ _
  | .or _ _ _ => or _ _ _
  | .and _ _ _ => and _ _ _
  | .jal _ _ => jal _ _
  | .jalr _ _ _ => jalr _ _ _
  | .beq _ _ _ => beq _ _ _
  | .bne _ _ _ => bne _ _ _
  | .blt _ _ _ => blt _ _ _
  | .bge _ _ _ => bge _ _ _
  | .bltu _ _ _ => bltu _ _ _
  | .bgeu _ _ _ => bgeu _ _ _
  | .lb _ _ _ => lb _ _ _
  | .lh _ _ _ => lh _ _ _
  | .lw _ _ _ => lw _ _ _
  | .lbu _ _ _ => lbu _ _ _
  | .lhu _ _ _ => lhu _ _ _
  | .sb _ _ _ => sb _ _ _
  | .sh _ _ _ => sh _ _ _
  | .sw _ _ _ => sw _ _ _
  | .fence _ _ _ _ _ => fence _ _ _ _ _
  | .fenceI _ _ _ => fenceI _ _ _
  | .ecall => ecall
  | .ebreak => ebreak
  | .mret => mret
  | .wfi => wfi
  | .csrrw _ _ _ => csrrw _ _ _
  | .csrrs _ _ _ => csrrs _ _ _
  | .csrrc _ _ _ => csrrc _ _ _
  | .csrrwi _ _ _ => csrrwi _ _ _
  | .csrrsi _ _ _ => csrrsi _ _ _
  | .csrrci _ _ _ => csrrci _ _ _
  | .mul _ _ _ => mul _ _ _
  | .mulh _ _ _ => mulh _ _ _
  | .mulhsu _ _ _ => mulhsu _ _ _
  | .mulhu _ _ _ => mulhu _ _ _
  | .div _ _ _ => div _ _ _
  | .divu _ _ _ => divu _ _ _
  | .rem _ _ _ => rem _ _ _
  | .remu _ _ _ => remu _ _ _
  | .lrW _ _ _ _ => lrW _ _ _ _
  | .scW _ _ _ _ _ => scW _ _ _ _ _
  | .amoswapW _ _ _ _ _ => amoswapW _ _ _ _ _
  | .amoaddW _ _ _ _ _ => amoaddW _ _ _ _ _
  | .amoxorW _ _ _ _ _ => amoxorW _ _ _ _ _
  | .amoandW _ _ _ _ _ => amoandW _ _ _ _ _
  | .amoorW _ _ _ _ _ => amoorW _ _ _ _ _
  | .amominW _ _ _ _ _ => amominW _ _ _ _ _
  | .amomaxW _ _ _ _ _ => amomaxW _ _ _ _ _
  | .amominuW _ _ _ _ _ => amominuW _ _ _ _ _
  | .amomaxuW _ _ _ _ _ => amomaxuW _ _ _ _ _
  | .cAddi4spn _ _ => cAddi4spn _ _
  | .cLw _ _ _ => cLw _ _ _
  | .cSw _ _ _ => cSw _ _ _
  | .cNop _ => cNop _
  | .cAddi _ _ => cAddi _ _
  | .cJal _ => cJal _
  | .cLi _ _ => cLi _ _
  | .cAddi16sp _ => cAddi16sp _
  | .cLui _ _ => cLui _ _
  | .cSrli _ _ => cSrli _ _
  | .cSrai _ _ => cSrai _ _
  | .cAndi _ _ => cAndi _ _
  | .cSub _ _ => cSub _ _
  | .cXor _ _ => cXor _ _
  | .cOr _ _ => cOr _ _
  | .cAnd _ _ => cAnd _ _
  | .cJ _ => cJ _
  | .cBeqz _ _ => cBeqz _ _
  | .cBnez _ _ => cBnez _ _
  | .cSlli _ _ => cSlli _ _
  | .cLwsp _ _ => cLwsp _ _
  | .cJr _ => cJr _
  | .cMv _ _ => cMv _ _
  | .cEbreak => cEbreak
  | .cJalr _ => cJalr _
  | .cAdd _ _ => cAdd _ _
  | .cSwsp _ _ => cSwsp _ _

end Sys2Proof.Laws.DecodeOfEncode

namespace Sys2Proof

/-- Settles O5: the encoding decodes to the instruction, and the decoder finds the encoding at the head of its bytes. -/
theorem decodeOfEncode : Obligations.DecodeOfEncode :=
  fun i rest hwf => decode_bytes (Laws.DecodeOfEncode.forall_statement i hwf) rest

end Sys2Proof
end

section
/-! PROOF. The integer instructions (40_rv32i_integer.md R211 to R231): the values of their operations as arithmetic, then
each instruction as `writeResult` of its value. -/

namespace Sys2Proof.Machine

/-! ## The values as arithmetic (00_scope.md R10) -/

theorem shiftLeft_eq_ofNat (v : Word) (n : BitVec 5) : shiftLeft v n = BitVec.ofNat 32 (v.toNat * 2 ^ n.toNat) :=
  BitVec.eq_of_toNat_eq (by simp [shiftLeft, Nat.shiftLeft_eq])

theorem shiftRightLogical_eq_ofNat (v : Word) (n : BitVec 5) :
    shiftRightLogical v n = BitVec.ofNat 32 (v.toNat / 2 ^ n.toNat) := by
  have hlt : v.toNat / 2 ^ n.toNat < 2 ^ 32 := (Nat.div_le_self _ _).trans_lt v.isLt
  refine BitVec.eq_of_toNat_eq ?_
  rw [BitVec.toNat_ofNat, Nat.mod_eq_of_lt hlt, shiftRightLogical, BitVec.toNat_ushiftRight, Nat.shiftRight_eq_div_pow]

/-- The arithmetic shift rounds down: it is the floor of the signed quotient. -/
theorem shiftRightArith_eq_ofInt (v : Word) (n : BitVec 5) :
    shiftRightArith v n = BitVec.ofInt 32 (v.toInt / 2 ^ n.toNat) := by
  simp [shiftRightArith, BitVec.sshiftRight, Int.shiftRight_eq_div_pow]

theorem shiftAmount_toNat (v : Word) : (shiftAmount v).toNat = v.toNat % 32 := by simp [shiftAmount]

theorem setIf_decide (p : Prop) [Decidable p] : setIf (decide p) = if p then 1#32 else 0#32 := by
  simp [setIf, bitWord]

/-! ## The instructions -/

/-- An instruction that is `writeResult` of a value computes that value, however the value is written. -/
theorem exec_computesOnly {i : Instr} {s : State} {len : Word} {rd : Reg} {v w : Word}
    (hexec : exec i s = writeResult len rd v s) (hvalue : v = w) :
    ∃ t, exec i s = .next t ∧ ComputesOnly len rd w s t := by
  rw [hexec, ← hvalue]
  exact writeResult_next len rd v s

/-- Settles O16: each is `writeResult` of its rule's value; the comparisons and the shifts become arithmetic. -/
theorem immediateResults : Obligations.ImmediateResults := by
  rintro s rd rs1 imm imm20 n a i rfl rfl
  refine ⟨?lui, ?auipc, ?addi, ?slti, ?sltiu, ?xori, ?ori, ?andi, ?slli, ?srli, ?srai⟩
  case slti | sltiu => exact exec_computesOnly rfl (setIf_decide _)
  case slli => exact exec_computesOnly rfl (shiftLeft_eq_ofNat _ n)
  case srli => exact exec_computesOnly rfl (shiftRightLogical_eq_ofNat _ n)
  case srai => exact exec_computesOnly rfl (shiftRightArith_eq_ofInt _ n)
  case lui | auipc | addi | xori | ori | andi => exact exec_computesOnly rfl rfl

/-- Settles O17: as for O16, with the shift amount in the low five bits of x[rs2]. -/
theorem registerResults : Obligations.RegisterResults := by
  rintro s rd rs1 rs2 a b n rfl rfl rfl
  rw [← shiftAmount_toNat]
  refine ⟨?add, ?sub, ?sll, ?slt, ?sltu, ?xor, ?srl, ?sra, ?or, ?and⟩
  case slt | sltu => exact exec_computesOnly rfl (setIf_decide _)
  case sll => exact exec_computesOnly rfl (shiftLeft_eq_ofNat _ _)
  case srl => exact exec_computesOnly rfl (shiftRightLogical_eq_ofNat _ _)
  case sra => exact exec_computesOnly rfl (shiftRightArith_eq_ofInt _ _)
  case add | sub | xor | or | and => exact exec_computesOnly rfl rfl

end Sys2Proof.Machine
end

section
/-! PROOF. Words of the opcode table (30_encoding.md R170 to R172): a word that is the encoding of a well-formed instruction
decodes to it. -/

namespace Sys2Proof

theorem tableBytes_full (w : Nat) : tableBytes 32 w = (Encoding.full (BitVec.ofNat 32 w)).bytes ++ [] := by
  simp only [tableBytes, leBytes, Encoding.bytes, List.append_nil, List.cons.injEq, and_true]
  refine ⟨?_, ?_, ?_, ?_⟩ <;> refine BitVec.eq_of_toNat_eq ?_ <;>
    simp only [BitVec.toNat_ofNat, BitVec.extractLsb'_toNat, Nat.shiftRight_eq_div_pow] <;> omega

/-- The table pads a parcel with zeros to the length of a word. -/
theorem tableBytes_half (w : Nat) : tableBytes 16 w = (Encoding.half (BitVec.ofNat 16 w)).bytes ++ [0#8, 0#8] := by
  simp only [tableBytes, leBytes, Encoding.bytes, List.cons_append, List.nil_append, List.cons.injEq, and_true]
  refine ⟨?_, ?_, ?_, ?_⟩ <;> refine BitVec.eq_of_toNat_eq ?_ <;>
    simp only [BitVec.toNat_ofNat, BitVec.extractLsb'_toNat, Nat.shiftRight_eq_div_pow] <;> omega

theorem decodeTableWord_of_bytes {nbits w : Nat} {i : Instr} {rest : List Byte} (hwf : i.wf = true)
    (hbytes : tableBytes nbits w = (encode i).bytes ++ rest) : decodeTableWord nbits w = some i := by
  rw [decodeTableWord, hbytes, decodeOfEncode i rest hwf]

theorem decodeTableWord_full {w : Nat} {i : Instr} (hwf : i.wf = true) (h : encode i = .full (BitVec.ofNat 32 w)) :
    decodeTableWord 32 w = some i :=
  decodeTableWord_of_bytes hwf (h ▸ tableBytes_full w)

theorem decodeTableWord_half {w : Nat} {i : Instr} (hwf : i.wf = true) (h : encode i = .half (BitVec.ofNat 16 w)) :
    decodeTableWord 16 w = some i :=
  decodeTableWord_of_bytes hwf (h ▸ tableBytes_half w)

/-- Settles O7: each word is the encoding of its instruction. -/
theorem specWordsDecode : Obligations.SpecWordsDecode := by
  refine ⟨?add, ?addi, ?jal, ?bne, ?lw, ?sb, ?csrrw, ?mret, ?div, ?scW, ?cAddi16sp, ?cBnez⟩
  case cAddi16sp | cBnez => exact decodeTableWord_half (by decide) (by decide)
  all_goals exact decodeTableWord_full (by decide) (by decide)

end Sys2Proof
end

section
/-! PROOF. Jumps and branches (41_rv32i_control.md R240 to R247, 46_c_compressed.md R346, R357 to R359, R362, R365): each is
`jumpAndLink`, `retireTo` or `branchIf` at the operands of its rule. -/

namespace Sys2Proof.Machine

/-! ## Jumps -/

/-- Settles O20: four jumps are `jumpAndLink`, c.j and c.jr, which do not link, are `retireTo`, each at its rule's target:
relative to pc, or a register's with bit 0 cleared. -/
theorem jumpResults : Obligations.JumpResults := by
  intro s rd rs1 off21 off12 imm
  refine ⟨?jal, ?jalr, ?cJal, ?cJ, ?cJr, ?cJalr⟩
  case jal => exact jumpAndLink_next 4 rd (pcOffset s off21) s
  case jalr => exact jumpAndLink_next 4 rd (clearBit0 (baseOffset s rs1 imm)) s
  case cJal => exact jumpAndLink_next 2 regRa (pcOffset s off12) s
  case cJ => exact ⟨_, rfl, retireTo_changesOnly (pcOffset s off12) s⟩
  case cJr => exact ⟨_, rfl, retireTo_changesOnly (clearBit0 (getReg s rs1)) s⟩
  case cJalr => exact jumpAndLink_next 2 regRa (clearBit0 (getReg s rs1)) s

/-! ## Branches -/

/-- The comparisons, as integers, and their negations (41_rv32i_control.md R244 to R247). -/
theorem lessSigned_iff (a b : Word) : lessSigned a b = true ↔ a.toInt < b.toInt := decide_eq_true_iff

theorem not_lessSigned_iff (a b : Word) : (!lessSigned a b) = true ↔ b.toInt ≤ a.toInt := by simp [lessSigned]

theorem lessUnsigned_iff (a b : Word) : lessUnsigned a b = true ↔ a.toNat < b.toNat := decide_eq_true_iff

theorem not_lessUnsigned_iff (a b : Word) : (!lessUnsigned a b) = true ↔ b.toNat ≤ a.toNat := by simp [lessUnsigned]

/-- An instruction that is `branchIf` of a test goes to the target where the condition that it tests holds, else on
after itself. -/
theorem exec_branches {i : Instr} {s : State} {len offset : Word} {taken : Bool} {p : Prop} [Decidable p]
    (hexec : exec i s = branchIf len taken offset s) (htaken : taken = true ↔ p) :
    ∃ t, exec i s = .next t ∧ ChangesOnly 0#5 0#32 (if p then s.pc + offset else s.pc + len) s t := by
  have h := branchIf_next len taken offset s
  simp only [htaken] at h
  rwa [hexec]

/-- Settles O21: each is `branchIf` of its comparison; bge and bgeu negate those of blt and bltu. -/
theorem branchResults : Obligations.BranchResults := by
  rintro s rs1 rs2 r off off9 a b c target target9 rfl rfl rfl rfl rfl
  refine ⟨?beq, ?bne, ?blt, ?bge, ?bltu, ?bgeu, ?cBeqz, ?cBnez⟩
  case beq | cBeqz => exact exec_branches rfl beq_iff_eq
  case bne | cBnez => exact exec_branches rfl bne_iff_ne
  case blt => exact exec_branches rfl (lessSigned_iff _ _)
  case bge => exact exec_branches rfl (not_lessSigned_iff _ _)
  case bltu => exact exec_branches rfl (lessUnsigned_iff _ _)
  case bgeu => exact exec_branches rfl (not_lessUnsigned_iff _ _)

end Sys2Proof.Machine
end

section
/-! PROOF. Loads, stores and fences on the platform's memory (42_rv32i_loadstore_fence.md R258 to R271): each load is `loadOp`
and each store `storeOp` at its operands, and the fences only retire. -/

namespace Sys2Proof.Machine

/-! ## Loads -/

/-- What the extensions make of the bytes read in little-endian order (R131, R258 to R262). -/
theorem signByte_readLE (m : Memory) (a : Nat) : signByte (Memory.readLE m a 1) = (m.read a).signExtend 32 := by
  simp [signByte, sext, extractLsb'_zero_eq_setWidth, Memory.readLE_one]

theorem zeroByte_readLE (m : Memory) (a : Nat) : zeroByte (Memory.readLE m a 1) = (m.read a).setWidth 32 := by
  simp [zeroByte, zext, extractLsb'_zero_eq_setWidth, Memory.readLE_one]

theorem signHalf_readLE (s : State) (a : Word) :
    signHalf (Memory.readLE s.mem a.toNat 2) = (halfAt s a).signExtend 32 := by
  simp [signHalf, sext, extractLsb'_zero_eq_setWidth, Memory.readLE_two, halfAt]

theorem zeroHalf_readLE (s : State) (a : Word) :
    zeroHalf (Memory.readLE s.mem a.toNat 2) = (halfAt s a).setWidth 32 := by
  simp [zeroHalf, zext, extractLsb'_zero_eq_setWidth, Memory.readLE_two, halfAt]

theorem wholeWord_readLE (s : State) (a : Word) : wholeWord (Memory.readLE s.mem a.toNat 4) = wordAt s a :=
  Memory.readLE_four s.mem a.toNat

/-- An instruction that is `loadOp` at an aligned address of the platform's memory computes what it reads, extended,
however the value is written. -/
theorem exec_loads {i : Instr} {s : State} {len : Word} {n : Nat} {ext : Word → Word} {rd : Reg} {a v : Word}
    (hexec : exec i s = loadOp len n ext rd a s) (h : AllMapped s.cfg a n) (ha : a.toNat % n = 0)
    (hvalue : ext (Memory.readLE s.mem a.toNat n) = v) : ∃ t, exec i s = .next t ∧ ComputesOnly len rd v s t := by
  rw [hexec, ← hvalue]
  exact loadOp_mapped len n ext rd a s ((aligned_iff a n).2 ha) h

/-- Settles O23: each load is `loadOp` with its rule's extension of the bytes read. -/
theorem loadResults : Obligations.LoadResults := by
  rintro s rd rs1 imm a rfl
  refine ⟨fun h => ⟨?lb, ?lbu⟩, fun h ha => ⟨?lh, ?lhu⟩, fun h ha => ?lw⟩
  case lb => exact exec_loads rfl h (Nat.mod_one _) (signByte_readLE s.mem _)
  case lbu => exact exec_loads rfl h (Nat.mod_one _) (zeroByte_readLE s.mem _)
  case lh => exact exec_loads rfl h ha (signHalf_readLE s _)
  case lhu => exact exec_loads rfl h ha (zeroHalf_readLE s _)
  case lw => exact exec_loads rfl h ha (wholeWord_readLE s _)

/-! ## Stores -/

/-- An aligned store to RAM goes on from the state with its bytes written. -/
theorem storeOp_eq_of_allRam {s : State} {a : Word} {n : Nat} (h : AllRam s.cfg a n) (ha : a.toNat % n = 0)
    (len v : Word) :
    storeOp len n v a s = .next (retire len (storeBytes (isRam s.cfg) a (wordBytes v n) s)) := by
  simp [storeOp, (aligned_iff a n).2 ha, sizeRefused_memory h.1, writeData, h.1, storeMemory_ram a n v s h]

/-- Writing bytes to RAM and going on changes these bytes, the pc and the count of instructions only. -/
theorem retire_storeBytes_storesOnly {s : State} {a : Word} {n : Nat} (hw : s.mem.wf = true) (h : AllRam s.cfg a n)
    (hbound : a.toNat + n ≤ 2 ^ 32) (len v : Word) :
    StoresOnly len a n v s (retire len (storeBytes (isRam s.cfg) a (wordBytes v n) s)) := by
  obtain ⟨-, -, hpc, hcount, hmem, hcontrol, hdevices, -, herrors⟩ :=
    retireTo_changesOnly (s.pc + len) (storeBytes (isRam s.cfg) a (wordBytes v n) s)
  refine ⟨fun k hk => ?inside, fun b hb => ?outside, sameRegs_of_regs rfl, hpc, hcount, hcontrol, hdevices, herrors⟩
  case inside => exact (hmem (a.toNat + k)).trans (storeBytes_holds a n v s hw hbound h k hk)
  case outside =>
    have hb' : b < a.toNat ∨ a.toNat + (wordBytes v n).length ≤ b := by rwa [wordBytes_length]
    exact (hmem b).trans (storeBytes_sameMemoryBut _ a _ s b hb')

/-- A store of a byte, halfword or word to an aligned address of RAM. -/
theorem storeOp_ram {s : State} {a : Word} {n : Nat} (hw : s.mem.wf = true) (h : AllRam s.cfg a n)
    (hn : n = 1 ∨ n = 2 ∨ n = 4) (ha : a.toNat % n = 0) (len v : Word) :
    ∃ t, storeOp len n v a s = .next t ∧ StoresOnly len a n v s t :=
  have hbound : a.toNat + n ≤ 2 ^ 32 := aligned_bound a n hn ((aligned_iff a n).2 ha)
  ⟨_, storeOp_eq_of_allRam h ha len v, retire_storeBytes_storesOnly hw h hbound len v⟩

/-- Settles O24: each store is `storeOp` of x[rs2] at its own size. -/
theorem storeResults : Obligations.StoreResults := by
  rintro s rs1 rs2 imm a hw rfl
  refine ⟨fun h => ?sb, fun h ha => ?sh, fun h ha => ?sw⟩
  case sb => exact storeOp_ram hw h (by decide) (Nat.mod_one _) 4 (getReg s rs2)
  case sh => exact storeOp_ram hw h (by decide) ha 4 (getReg s rs2)
  case sw => exact storeOp_ram hw h (by decide) ha 4 (getReg s rs2)

/-! ## Fences -/

/-- With no store noted since the last fence.i, no parcel is touched. -/
theorem untouched_of_storeLog_nil {s : State} (h : s.storeLog = []) (a : Nat) : Untouched s a := by
  simp [Untouched, h]

/-- Settles O30: both fences only retire, fence.i from the state with the store log emptied. -/
theorem fenceResults : Obligations.FenceResults := by
  intro s fm pred succ imm rs1 rd
  refine ⟨?fence, ⟨retire 4 { s with storeLog := [] }, rfl, ?fenceI, ?fetched⟩, ?untouched⟩
  case fence => exact ⟨_, rfl, retireTo_changesOnly (s.pc + 4) s⟩
  case fenceI => exact retireTo_changesOnly (s.pc + 4) { s with storeLog := [] }
  case fetched => exact fun j a => parcelSeen_untouched (untouched_of_storeLog_nil rfl a) j
  case untouched => exact fun j a h => parcelSeen_untouched h j

end Sys2Proof.Machine
end

section
/-! PROOF. The SYSTEM instructions (43_system_csr.md R275 to R286): ecall, ebreak and wfi; then the six CSR instructions,
each of which is `csrOp` on an ordinary register, and what `csrOp` does. -/

namespace Sys2Proof.Machine

/-! ## ecall, ebreak, wfi -/

/-- Settles O44: each of them raises its exception, ecall by the mode. -/
theorem trapInstructions : Obligations.TrapInstructions := by
  refine fun s => ⟨fun hu => ?user, fun hm => ?machine, raise_next _ _ s, raise_next _ _ s⟩
  case user =>
    simp only [exec, execEcall, hu]
    exact raise_next _ _ s
  case machine =>
    simp only [exec, execEcall, hm]
    exact raise_next _ _ s

/-- Settles O49: wfi only retires, from the state that sleeps. -/
theorem wfiSleeps : Obligations.WfiSleeps := fun s =>
  ⟨_, rfl, retireTo_changesOnly (s.pc + 4) { s with sleeping := true }, rfl, Bool.true_and s.csr.sleepvalue⟩

/-! ## The six CSR instructions as `csrOp` -/

section Dispatch

variable {s : State} {a : CsrAddr} {k : Csr} {r : BitVec 5}

theorem exec_csrrw_eq_csrOp (h : csrAccess s a true = some k) (hk : k ∉ [Csr.jalmnxti, .mscratchcsw, .mscratchcswl])
    (rd : Reg) : exec (.csrrw rd r a) s = csrOp rd k true (getReg s r) s := by
  simp only [exec, execCsrrw, h]
  split <;> simp_all

theorem exec_csrrs_eq_csrOp (h : csrAccess s a (r != 0#5) = some k) (rd : Reg) :
    exec (.csrrs rd r a) s = csrOp rd k (r != 0#5) (csrRead s k ||| getReg s r) s := by
  simp only [exec, execCsrrs, h]

theorem exec_csrrc_eq_csrOp (h : csrAccess s a (r != 0#5) = some k) (rd : Reg) :
    exec (.csrrc rd r a) s = csrOp rd k (r != 0#5) (csrRead s k &&& ~~~(getReg s r)) s := by
  simp only [exec, execCsrrc, h]

theorem exec_csrrwi_eq_csrOp (h : csrAccess s a true = some k) (hk : k ∉ [Csr.pushmsubm, .pushmcause, .pushmepc])
    (rd : Reg) : exec (.csrrwi rd r a) s = csrOp rd k true (zext r) s := by
  simp only [exec, execCsrrwi, h]
  split <;> simp_all

theorem exec_csrrsi_eq_csrOp (h : csrAccess s a (r != 0#5) = some k) (hk : k ≠ .mnxti) (rd : Reg) :
    exec (.csrrsi rd r a) s = csrOp rd k (r != 0#5) (csrRead s k ||| zext r) s := by
  simp only [exec, execCsrrsi, h]

theorem exec_csrrci_eq_csrOp (h : csrAccess s a (r != 0#5) = some k) (hk : k ≠ .mnxti) (rd : Reg) :
    exec (.csrrci rd r a) s = csrOp rd k (r != 0#5) (csrRead s k &&& ~~~(zext r)) s := by
  simp only [exec, execCsrrci, h]

end Dispatch

/-! ## Ordinary registers (R279 to R286) -/

/-- An access that nothing stops is to an ordinary register. -/
theorem isSpecial_of_csrRefusal_none {s : State} {k : Csr} (h : csrRefusal s k = none) : isSpecial k = false := by
  cases hs : isSpecial k
  · rfl
  · simp [csrRefusal, hs] at h

theorem notMem_of_not_isSpecial {k : Csr} (h : isSpecial k = false) {l : List Csr} (hl : ∀ k' ∈ l, isSpecial k' = true) :
    k ∉ l := fun hmem => by simp [hl k hmem] at h

/-- The registers that do not show minstret show the parameters, the CSR fields, mcycle, mtime and the free bit only. -/
theorem csrRead_congr {s t : State} (hcfg : t.cfg = s.cfg) (hcsr : t.csr = s.csr) (hmcycle : t.mcycle = s.mcycle)
    (htimer : t.timer = s.timer) (hsteps : t.steps = s.steps) {k : Csr}
    (hk : k ∉ [Csr.minstret, .minstreth, .instret, .instreth]) : csrRead t k = csrRead s k := by
  cases k
  case minstret | minstreth | instret | instreth => simp at hk
  all_goals simp only [csrRead, hcfg, hcsr, hmcycle, htimer, hsteps]

/-- The write of a CSR instruction changes the CSR fields, the two counters and the tx_evt pulses at most. -/
theorem csrUpdated_frame (s : State) (k : Csr) (wr : Bool) (v : Word) :
    csrUpdated s k wr v = { s with
      csr := (csrUpdated s k wr v).csr
      mcycle := (csrUpdated s k wr v).mcycle
      minstret := (csrUpdated s k wr v).minstret
      txPulses := (csrUpdated s k wr v).txPulses } := by
  cases wr
  · rfl
  · exact csrWrite_frame s k v

theorem csrUpdated_txPulses (s : State) (k : Csr) (wr : Bool) (v : Word) :
    (csrUpdated s k wr v).txPulses
      = s.txPulses + (if wr = true ∧ k = .txevt ∧ v.getLsbD 0 = true then 1 else 0) := by
  cases wr
  · simp [csrUpdated]
  · simpa [csrUpdated] using csrWrite_txPulses s v k

theorem csrRead_csrUpdated {s : State} {k k' : Csr} {wr : Bool} (h : wr = false ∨ k' ∉ seenIn k) (v : Word) :
    csrRead (csrUpdated s k wr v) k' = csrRead s k' := by
  rcases h with rfl | h
  · rfl
  · cases wr
    · rfl
    · exact csrRead_csrWrite_of_notMem_seenIn s v h

/-- An instruction that does not write the counter is counted by the IR bit before it (log 30). -/
theorem countAfterCsr_eq_countRetired {s : State} {k : Csr} {wr : Bool}
    (h : wr = false ∨ (k ≠ .minstret ∧ k ≠ .minstreth)) (v : Word) :
    countAfterCsr s k wr (csrUpdated s k wr v).minstret = countRetired s := by
  have hcount : (csrUpdated s k wr v).minstret = s.minstret := by
    cases wr with
    | false => rfl
    | true =>
      obtain ⟨hlow, hhigh⟩ := h.resolve_left (by decide)
      exact csrWrite_minstret s k v hlow hhigh
  have hown : (wr && (k == .minstret || k == .minstreth)) = false := by
    rcases h with rfl | ⟨hlow, hhigh⟩
    · rfl
    · simp [hlow, hhigh]
  simp [countAfterCsr, countRetired, hcount, hown]

/-- An instruction that writes the counter leaves what it wrote, or one more where counting is enabled (log 15). -/
theorem countAfterCsr_own {s : State} {k : Csr} (h : k = .minstret ∨ k = .minstreth) (n : BitVec 64) :
    countAfterCsr s k true n = n ∨ (s.csr.inhibitIr = false ∧ countAfterCsr s k true n = n + 1) := by
  have hown : (true && (k == .minstret || k == .minstreth)) = true := by rcases h with rfl | rfl <;> rfl
  cases hir : s.csr.inhibitIr with
  | true => exact .inl (by simp [countAfterCsr, hir])
  | false =>
    cases hfree : Config.freeOwnCount s.steps with
    | true => exact .inr ⟨rfl, by simp only [countAfterCsr, hir, hown, hfree]; rfl⟩
    | false => exact .inl (by simp only [countAfterCsr, hir, hown, hfree]; rfl)

/-- What an ordinary access that nothing stops does. -/
theorem csrOp_accessesCsr {s : State} {k : Csr} (h : csrRefusal s k = none) (rd : Reg) (wr : Bool) (v : Word) :
    ∃ t, csrOp rd k wr v s = .next t ∧ AccessesCsr rd k wr v s t := by
  obtain ⟨r, hr, -⟩ | ⟨-, hnext⟩ := csrOp_cases rd k wr v s
  · simp [h] at hr
  refine ⟨_, hnext, ?_⟩
  obtain ⟨csr, mcycle, minstret, txPulses, hu⟩ : ∃ csr mcycle minstret txPulses, csrUpdated s k wr v
      = { s with csr := csr, mcycle := mcycle, minstret := minstret, txPulses := txPulses } :=
    ⟨_, _, _, _, csrUpdated_frame s k wr v⟩
  have hregs : (csrUpdated s k wr v).regs = s.regs := by rw [hu]
  have hothers : SameRegsBut rd (csrUpdated s k wr v) _ := sameRegsBut_of_regs (v := csrRead s k) rfl
  refine ⟨wrote_of_regs (s := csrUpdated s k wr v) rfl, fun r hr => (hothers r hr).trans (getReg_congr hregs r), rfl,
    fun b => ?mem, ⟨?timer, ?eclic, ?reservation⟩, ?priv, ?cfg, ?sleeping, ?nmiPending, ?nmiPrev, ?rxEvt, ?errorReports,
    ?storeLog, ?env, ?envRest, ?steps, setReg_csr _ rd _, setReg_mcycle _ rd _,
    (setReg_txPulses _ rd _).trans (csrUpdated_txPulses s k wr v), fun k' hk' hcount => ?reads,
    fun hk => countAfterCsr_eq_countRetired hk v, ?own⟩
  case reads =>
    refine (csrRead_congr ?_ ?_ ?_ ?_ ?_ hcount).trans (csrRead_csrUpdated hk' v) <;> simp
  case own =>
    rintro rfl hk
    exact countAfterCsr_own hk _
  all_goals simp [hu]

/-- Settles O53: on an ordinary register each of the six is `csrOp`. -/
theorem csrInstructions : Obligations.CsrInstructions := by
  intro s rd r a k hk
  have hordinary := isSpecial_of_csrRefusal_none hk
  have hmnxti : k ≠ .mnxti := by rintro rfl; cases hordinary
  refine ⟨fun h => ⟨?csrrw, ?csrrwi⟩, fun h => ⟨?csrrs, ?csrrc, ?csrrsi, ?csrrci⟩⟩
  case csrrw =>
    rw [exec_csrrw_eq_csrOp h (notMem_of_not_isSpecial hordinary (by decide))]
    exact csrOp_accessesCsr hk rd _ _
  case csrrwi =>
    rw [exec_csrrwi_eq_csrOp h (notMem_of_not_isSpecial hordinary (by decide))]
    exact csrOp_accessesCsr hk rd _ _
  case csrrs =>
    rw [exec_csrrs_eq_csrOp h]
    exact csrOp_accessesCsr hk rd _ _
  case csrrc =>
    rw [exec_csrrc_eq_csrOp h]
    exact csrOp_accessesCsr hk rd _ _
  case csrrsi =>
    rw [exec_csrrsi_eq_csrOp h hmnxti]
    exact csrOp_accessesCsr hk rd _ _
  case csrrci =>
    rw [exec_csrrci_eq_csrOp h hmnxti]
    exact csrOp_accessesCsr hk rd _ _

end Sys2Proof.Machine
end

section
/-! PROOF. The special registers (43_system_csr.md section 4): their undocumented forms, the exchanges with mscratch, the push
registers, then mnxti and jalmnxti, which serve the interrupt they find. -/

namespace Sys2Proof.Machine

/-! ## The access check and the undocumented forms (R304) -/

/-- Machine Mode may access the special registers, whether it writes or not. -/
theorem csrAccess_special {s : State} (hm : s.priv = .machine) {a : CsrAddr} {k : Csr} (hat : csrAt a = some k)
    (hsp : isSpecial k = true) (wr : Bool) : csrAccess s a wr = some k := by
  refine csrAccess_eq_some_iff.2 ⟨hat, ?notCounteren, (accessAllowed_machine hm k wr).2 fun _ => ?writable⟩
  case notCounteren =>
    rintro ⟨rfl, -⟩
    cases hsp
  case writable => cases k <;> simp [isSpecial] at hsp <;> rfl

/-- A special register has no ordinary access. -/
theorem csrOp_special {k : Csr} (hsp : isSpecial k = true) (rd : Reg) (wr : Bool) (v : Word) (s : State) :
    csrOp rd k wr v s = .refused .undocumentedCsrForm := by simp [csrOp, csrRefusal, hsp]

section Undocumented

variable {s : State} {a : CsrAddr} {k : Csr}

theorem csrrw_undocumented (hm : s.priv = .machine) (hat : csrAt a = some k) (hsp : isSpecial k = true)
    (hk : k ∉ [Csr.jalmnxti, .mscratchcsw, .mscratchcswl]) (rd r : BitVec 5) :
    exec (.csrrw rd r a) s = .refused .undocumentedCsrForm :=
  (exec_csrrw_eq_csrOp (csrAccess_special hm hat hsp _) hk rd).trans (csrOp_special hsp _ _ _ _)

theorem csrrs_undocumented (hm : s.priv = .machine) (hat : csrAt a = some k) (hsp : isSpecial k = true)
    (rd r : BitVec 5) : exec (.csrrs rd r a) s = .refused .undocumentedCsrForm :=
  (exec_csrrs_eq_csrOp (csrAccess_special hm hat hsp _) rd).trans (csrOp_special hsp _ _ _ _)

theorem csrrc_undocumented (hm : s.priv = .machine) (hat : csrAt a = some k) (hsp : isSpecial k = true)
    (rd r : BitVec 5) : exec (.csrrc rd r a) s = .refused .undocumentedCsrForm :=
  (exec_csrrc_eq_csrOp (csrAccess_special hm hat hsp _) rd).trans (csrOp_special hsp _ _ _ _)

theorem csrrwi_undocumented (hm : s.priv = .machine) (hat : csrAt a = some k) (hsp : isSpecial k = true)
    (hk : k ∉ [Csr.pushmsubm, .pushmcause, .pushmepc]) (rd r : BitVec 5) :
    exec (.csrrwi rd r a) s = .refused .undocumentedCsrForm :=
  (exec_csrrwi_eq_csrOp (csrAccess_special hm hat hsp _) hk rd).trans (csrOp_special hsp _ _ _ _)

/-- csrrwi on a push register is described with rd = x0 only (R300). -/
theorem csrrwi_push_undocumented (hm : s.priv = .machine) (hat : csrAt a = some k)
    (hk : k ∈ [Csr.pushmsubm, .pushmcause, .pushmepc]) {rd : Reg} (hrd : rd ≠ 0#5) (r : BitVec 5) :
    exec (.csrrwi rd r a) s = .refused .undocumentedCsrForm := by
  simp only [List.mem_cons, List.not_mem_nil, or_false] at hk
  rcases hk with rfl | rfl | rfl <;> simp only [exec, execCsrrwi, csrAccess_special hm hat rfl, if_neg hrd]

theorem csrrsi_undocumented (hm : s.priv = .machine) (hat : csrAt a = some k) (hsp : isSpecial k = true)
    (hk : k ≠ .mnxti) (rd r : BitVec 5) : exec (.csrrsi rd r a) s = .refused .undocumentedCsrForm :=
  (exec_csrrsi_eq_csrOp (csrAccess_special hm hat hsp _) hk rd).trans (csrOp_special hsp _ _ _ _)

theorem csrrci_undocumented (hm : s.priv = .machine) (hat : csrAt a = some k) (hsp : isSpecial k = true)
    (hk : k ≠ .mnxti) (rd r : BitVec 5) : exec (.csrrci rd r a) s = .refused .undocumentedCsrForm :=
  (exec_csrrci_eq_csrOp (csrAccess_special hm hat hsp _) hk rd).trans (csrOp_special hsp _ _ _ _)

end Undocumented

theorem csrAt_push : ∀ a ∈ [0x7EB#12, 0x7EE#12, 0x7EF#12],
    ∃ k, csrAt a = some k ∧ k ∈ [Csr.pushmsubm, .pushmcause, .pushmepc] := by
  simp only [List.forall_mem_cons]
  exact ⟨⟨_, rfl, by decide⟩, ⟨_, rfl, by decide⟩, ⟨_, rfl, by decide⟩, List.forall_mem_nil _⟩

theorem push_isSpecial : ∀ k ∈ [Csr.pushmsubm, .pushmcause, .pushmepc],
    isSpecial k = true ∧ k ∉ [Csr.jalmnxti, .mscratchcsw, .mscratchcswl] ∧ k ≠ .mnxti := by decide

/-- Settles O60: on a special register each form but the described ones is `csrOp`, which refuses it. -/
theorem undocumentedForms_refused : Obligations.UndocumentedForms := by
  intro s rd r hm
  have hrw {a k} hat hsp hk := csrrw_undocumented (s := s) (a := a) (k := k) hm hat hsp hk rd r
  have hrs {a k} hat hsp := csrrs_undocumented (s := s) (a := a) (k := k) hm hat hsp rd r
  have hrc {a k} hat hsp := csrrc_undocumented (s := s) (a := a) (k := k) hm hat hsp rd r
  have hrwi {a k} hat hsp hk := csrrwi_undocumented (s := s) (a := a) (k := k) hm hat hsp hk rd r
  have hrsi {a k} hat hsp hk := csrrsi_undocumented (s := s) (a := a) (k := k) hm hat hsp hk rd r
  have hrci {a k} hat hsp hk := csrrci_undocumented (s := s) (a := a) (k := k) hm hat hsp hk rd r
  refine ⟨?forms, fun a ha => ?push⟩
  case forms =>
    simp only [List.forall_mem_cons]
    exact ⟨hrw rfl rfl (by decide), hrs rfl rfl, hrc rfl rfl, hrwi rfl rfl (by decide),
      hrs rfl rfl, hrc rfl rfl, hrwi rfl rfl (by decide), hrsi rfl rfl (by decide), hrci rfl rfl (by decide),
      hrs rfl rfl, hrc rfl rfl, hrwi rfl rfl (by decide), hrsi rfl rfl (by decide), hrci rfl rfl (by decide),
      hrs rfl rfl, hrc rfl rfl, hrwi rfl rfl (by decide), hrsi rfl rfl (by decide), hrci rfl rfl (by decide),
      List.forall_mem_nil _⟩
  case push =>
    obtain ⟨k, hat, hk⟩ := csrAt_push a ha
    obtain ⟨hsp, hnotSwap, hnotMnxti⟩ := push_isSpecial k hk
    simp only [List.forall_mem_cons]
    exact ⟨⟨hrw hat hsp hnotSwap, hrs hat hsp, hrc hat hsp, hrsi hat hsp hnotMnxti, hrci hat hsp hnotMnxti,
      List.forall_mem_nil _⟩, fun hrd => csrrwi_push_undocumented hm hat hk hrd r⟩

/-! ## Exchanges with mscratch (R302, R303) -/

theorem exec_csrrw_mscratchcsw {s : State} (hm : s.priv = .machine) (rd rs1 : Reg) :
    exec (.csrrw rd rs1 0x348#12) s = scratchSwap (fromOtherMode s) rd rs1 s := by
  simp only [exec, execCsrrw, csrAccess_special hm (a := 0x348#12) rfl rfl]

theorem exec_csrrw_mscratchcswl {s : State} (hm : s.priv = .machine) (rd rs1 : Reg) :
    exec (.csrrw rd rs1 0x349#12) s = scratchSwap (crossesLevelZero s) rd rs1 s := by
  simp only [exec, execCsrrw, csrAccess_special hm (a := 0x349#12) rfl rfl]

/-- What the exchange does: both registers are written, or x[rd] only. -/
theorem scratchSwap_next {swap : Bool} {p : Prop} (hp : swap = true ↔ p) (rd rs1 : Reg) (s : State) :
    (p → ∃ t, scratchSwap swap rd rs1 s = .next t
      ∧ ComputesOnly 4 rd s.csr.mscratch { s with csr := { s.csr with mscratch := getReg s rs1 } } t) ∧
    (¬p → ∃ t, scratchSwap swap rd rs1 s = .next t ∧ ComputesOnly 4 rd (getReg s rs1) s t) := by
  refine ⟨fun h => ?swaps, fun h => ?moves⟩
  case swaps =>
    rw [scratchSwap, if_pos (hp.2 h)]
    exact writeResult_next 4 rd _ _
  case moves =>
    rw [scratchSwap, if_neg (fun hs => h (hp.1 hs))]
    exact writeResult_next 4 rd _ s

theorem fromOtherMode_iff (s : State) : fromOtherMode s = true ↔ s.csr.mpp ≠ 3#2 := bne_iff_ne

theorem crossesLevelZero_iff (s : State) :
    crossesLevelZero s = true ↔ ¬(s.csr.causeMpil = 0#8 ↔ s.csr.mil = 0#8) := by
  rw [crossesLevelZero, bne_iff_ne, ne_eq, Bool.eq_iff_iff, beq_iff_eq, beq_iff_eq]

/-- Settles O59: both are `scratchSwap`, each by its own condition. -/
theorem scratchSwapResults : Obligations.ScratchSwapResults := by
  intro s rd rs1 hm
  simp only [List.forall_mem_cons, exec_csrrw_mscratchcsw hm, exec_csrrw_mscratchcswl hm]
  exact ⟨scratchSwap_next (fromOtherMode_iff s) rd rs1 s, scratchSwap_next (crossesLevelZero_iff s) rd rs1 s,
    List.forall_mem_nil _⟩

/-! ## The push registers (R300) -/

/-- Each form of store to RAM. -/
theorem exec_storeForms_ram {s : State} {rs1 rs2 : Reg} {imm : BitVec 12} {d b : CReg} {u7 : BitVec 7} {u8 : BitVec 8}
    {n : BitVec 5} {p : StoreForm} (hp : p ∈ storeForms s rs1 rs2 imm d b u7 u8 n) (hw : s.mem.wf = true)
    (ha : p.addr.toNat % p.bytes = 0) (h : AllRam s.cfg p.addr p.bytes) :
    ∃ t, exec p.instr s = .next t ∧ StoresOnly p.len p.addr p.bytes p.value s t := by
  obtain ⟨hexec, hbytes⟩ := exec_storeForms hp
  rw [hexec]
  exact storeOp_ram hw h hbytes ha _ _

/-- Settles O58: in Machine Mode the push registers are forms of store. -/
theorem pushResults : Obligations.PushResults := by
  rintro s u a hw hm rfl ha h
  have hforms : ∀ p ∈ storeForms s 0 0 0 0 0 0 0 u, p.addr.toNat % p.bytes = 0 → AllRam s.cfg p.addr p.bytes →
      ∃ t, exec p.instr s = .next t ∧ StoresOnly p.len p.addr p.bytes p.value s t :=
    fun p hp => exec_storeForms_ram hp hw
  simp only [storeForms, if_pos hm, List.cons_append, List.nil_append, List.forall_mem_cons] at hforms
  obtain ⟨-, -, -, -, -, hmsubm, hmcause, hmepc, -⟩ := hforms
  exact ⟨hmsubm ha h, hmcause ha h, hmepc ha h⟩

/-! ## mnxti and jalmnxti: the interrupt they find (R296, R298) -/

section NextInterrupt

variable {s : State}

/-- Nothing to serve: no request, a level that is not above MPIL, or a vectored interrupt. -/
theorem nextInterrupt_none
    (h : eclicRequest s.eclic = none
      ∨ ∃ w, eclicRequest s.eclic = some w ∧ (w.level.toNat ≤ s.csr.causeMpil.toNat ∨ w.shv = true)) :
    nextInterrupt s = none := by
  rcases h with h | ⟨w, h, hlevel | hshv⟩
  · simp [nextInterrupt, h]
  · simp [nextInterrupt, h, hlevel]
  · simp [nextInterrupt, h, hshv]

theorem nextInterrupt_some {w : Candidate} (h : eclicRequest s.eclic = some w)
    (hlevel : s.csr.causeMpil.toNat < w.level.toNat) (hshv : w.shv = false) : nextInterrupt s = some w := by
  simp [nextInterrupt, h, hlevel, hshv]

/-- What an instruction leaves alone that changed only CSR fields other than mcountinhibit.IR and the ECLIC, to `u`, before
it wrote x[rd] and went on. -/
theorem changesOnly_after_claim {u t : State} {rd : Reg} {v target : Word}
    (h : ChangesOnly rd v target u t) (hu : u = { s with csr := u.csr, eclic := u.eclic })
    (hir : u.csr.inhibitIr = s.csr.inhibitIr) :
    Wrote rd v t ∧ SameRegsBut rd s t ∧ SameMemory s t ∧ t.pc = target ∧ t.minstret = countRetired s
      ∧ SameOutside s t ∧ t.priv = s.priv ∧ t.reservation = s.reservation ∧ t.timer = s.timer
      ∧ t.errorReports = s.errorReports ∧ t.storeLog = s.storeLog ∧ t.csr = u.csr ∧ t.eclic = u.eclic := by
  obtain ⟨r, e, rfl⟩ : ∃ r e, u = { s with csr := r, eclic := e } := ⟨_, _, hu⟩
  obtain ⟨hwrote, hregs, hpc, hcount, hmem, ⟨houtside, hpriv, hcsr⟩, ⟨htimer, heclic, hres⟩, hlog, herrors⟩ := h
  have hcount' : t.minstret = countRetired s := by rw [hcount, countRetired, countRetired, hir]
  exact ⟨hwrote, hregs, hmem, hpc, hcount', houtside, hpriv, hres, htimer, herrors, hlog, hcsr, heclic⟩

theorem readData_wordAt {a : Word} (h : AllMapped s.cfg a 4) : readData s a 4 = (wordAt s a, s) :=
  (readData_mapped s a 4 h).trans (Prod.ext (wholeWord_readLE s a) rfl)

end NextInterrupt

/-! ## mnxti (R295 to R297) -/

theorem mnxtiStatus_eq (set : Bool) (u : BitVec 5) (s : State) :
    mnxtiStatus set u s = { s with csr := { s.csr with mie := if u.getLsbD 3 then set else s.csr.mie } } := by
  unfold mnxtiStatus
  split <;> rfl

/-- The state from which an mnxti access with an interrupt to serve writes x[rd] (R296). -/
def mnxtiServed (set : Bool) (u : BitVec 5) (w : Candidate) (s : State) : State :=
  if u = 0#5 then s else claimNext w (mnxtiStatus set u s)

/-- MNXTI_VALUE of the table entry at `a`, by the implementation's parameter (R297). -/
def mnxtiReads (s : State) (a : Word) : Word :=
  match s.cfg.mnxtiReading with
  | .entryContent => wordAt s a
  | .entryAddress => a

section Mnxti

variable {s : State} {w : Candidate} {a : Word}

theorem exec_mnxti (hm : s.priv = .machine) (set : Bool) (rd : Reg) (u : BitVec 5) :
    exec (if set then .csrrsi rd u 0x345#12 else .csrrci rd u 0x345#12) s = mnxtiOp set rd u s := by
  have hacc := csrAccess_special hm (a := 0x345#12) (k := .mnxti) rfl rfl (u != 0#5)
  cases set
  · show execCsrrci rd u 0x345#12 s = _
    simp only [execCsrrci, hacc]
  · show execCsrrsi rd u 0x345#12 s = _
    simp only [execCsrrsi, hacc]

theorem mnxtiOp_none (h : nextInterrupt s = none) (set : Bool) (rd : Reg) (u : BitVec 5) :
    mnxtiOp set rd u s = writeResult 4 rd 0#32 (mnxtiStatus set u s) := by simp only [mnxtiOp, h]

theorem mnxtiOp_some (h : nextInterrupt s = some w) (set : Bool) (rd : Reg) (u : BitVec 5) :
    mnxtiOp set rd u s
      = writeResult 4 rd (mnxtiValue (mnxtiServed set u w s) w).1 (mnxtiValue (mnxtiServed set u w s) w).2 := by
  simp only [mnxtiOp, h, mnxtiServed]

theorem mnxtiValue_mapped (ha : a = vectorEntry s.csr w.id) (h : AllMapped s.cfg a 4) :
    mnxtiValue s w = (mnxtiReads s a, s) := by
  subst ha
  cases hr : s.cfg.mnxtiReading with
  | entryContent => simp only [mnxtiValue, mnxtiReads, hr, readData_wordAt h]
  | entryAddress => simp only [mnxtiValue, mnxtiReads, hr]

/-- With uimm 0 nothing is updated; else MIE, EXCCODE, MIL and the pending bit (R296). -/
theorem mnxtiServed_cases (set : Bool) (u : BitVec 5) (w : Candidate) (s : State) :
    (u = 0#5 ∧ mnxtiServed set u w s = s) ∨
    (u ≠ 0#5 ∧ mnxtiServed set u w s = { s with
      csr := { s.csr with
        mie := if u.getLsbD 3 then set else s.csr.mie
        causeExccode := BitVec.ofNat 12 w.id, mil := w.level }
      eclic := claim s.eclic w.id }) := by
  by_cases hu : u = 0#5
  · exact .inl ⟨hu, if_pos hu⟩
  · refine .inr ⟨hu, (if_neg hu).trans ?_⟩
    rw [mnxtiStatus_eq]
    rfl

theorem mnxtiServed_frame (set : Bool) (u : BitVec 5) (w : Candidate) (s : State) :
    mnxtiServed set u w s
        = { s with csr := (mnxtiServed set u w s).csr, eclic := (mnxtiServed set u w s).eclic }
      ∧ (mnxtiServed set u w s).csr.inhibitIr = s.csr.inhibitIr := by
  rcases mnxtiServed_cases set u w s with ⟨-, hserved⟩ | ⟨-, hserved⟩ <;> rw [hserved] <;> exact ⟨rfl, rfl⟩

/-- An mnxti access with an interrupt to serve writes x[rd] from the state that serves it. -/
theorem mnxtiOp_serves (hw : nextInterrupt s = some w) (ha : a = vectorEntry s.csr w.id) (h : AllMapped s.cfg a 4)
    (set : Bool) (rd : Reg) (u : BitVec 5) :
    mnxtiOp set rd u s = writeResult 4 rd (mnxtiReads s a) (mnxtiServed set u w s) := by
  have hvalue : mnxtiValue (mnxtiServed set u w s) w = (mnxtiReads s a, mnxtiServed set u w s) := by
    rcases mnxtiServed_cases set u w s with ⟨-, hserved⟩ | ⟨-, hserved⟩
    all_goals
      rw [hserved]
      exact mnxtiValue_mapped ha h
  rw [mnxtiOp_some hw, hvalue]

end Mnxti

/-- Settles O56: x[rd] is written from the state with MIE updated, or from the state that serves the interrupt. -/
theorem mnxtiResults : Obligations.MnxtiResults := by
  rintro s rd u set i hm rfl
  rw [exec_mnxti hm]
  refine ⟨fun h => ?nothing, fun w a hreq hlevel hshv ha h => ?serves⟩
  case nothing =>
    rw [mnxtiOp_none (nextInterrupt_none h), ← mnxtiStatus_eq]
    exact writeResult_next 4 rd 0#32 _
  case serves =>
    rw [mnxtiOp_serves (nextInterrupt_some hreq hlevel hshv) ha h]
    obtain ⟨t, hnext, ht⟩ := writeResult_next 4 rd (mnxtiReads s a) (mnxtiServed set u w s)
    obtain ⟨hframe, hir⟩ := mnxtiServed_frame set u w s
    obtain ⟨hwrote, hregs, hmem, hpc, hcount, houtside, hpriv, hres, htimer, herrors, hlog, hcsr, heclic⟩ :=
      changesOnly_after_claim ht hframe hir
    refine ⟨t, hnext, hwrote, hregs, hmem, ?pc, hcount, houtside, hpriv, hres, htimer, herrors, hlog, ?served⟩
    case pc => rw [hpc, hframe]
    case served =>
      rcases mnxtiServed_cases set u w s with ⟨hu, hserved⟩ | ⟨hu, hserved⟩
      · rw [hserved] at hcsr heclic
        exact ⟨fun _ => ⟨hcsr, heclic⟩, fun h => absurd hu h⟩
      · rw [hserved] at hcsr heclic
        exact ⟨fun h => absurd h hu, fun _ => ⟨heclic, hcsr⟩⟩

/-! ## jalmnxti (R298) -/

theorem exec_jalmnxti {s : State} (hm : s.priv = .machine) (rd rs1 : Reg) :
    exec (.csrrw rd rs1 0x7ED#12) s = jalmnxtiOp rd s := by
  simp only [exec, execCsrrw, csrAccess_special hm (a := 0x7ED#12) rfl rfl]

/-- With an interrupt to serve it is claimed, then the hart jumps to its routine, the link at the instruction itself. -/
theorem jalmnxtiOp_serves {s : State} {w : Candidate} {a : Word} (hw : nextInterrupt s = some w)
    (ha : a = vectorEntry s.csr w.id) (h : AllMapped s.cfg a 4) (rd : Reg) :
    ∃ t, jalmnxtiOp rd s = .next t ∧ ChangesOnly rd s.pc (clearBit0 (wordAt s a))
      (claimNext w { s with csr := { s.csr with mie := true } }) t := by
  subst ha
  refine ⟨_, ?_, retireTo_setReg_changesOnly _ rd s.pc _⟩
  simp only [jalmnxtiOp, hw, readData_wordAt h]

/-- Settles O57: with nothing to serve the instruction only retires; else it jumps from the state with the interrupt
claimed. -/
theorem jalmnxtiResults : Obligations.JalmnxtiResults := by
  intro s rd rs1 hm
  rw [exec_jalmnxti hm]
  refine ⟨fun h => ⟨retire 4 s, ?noop, retireTo_changesOnly _ s⟩, fun w a hreq hlevel hshv ha h => ?jump⟩
  case noop => simp only [jalmnxtiOp, nextInterrupt_none h]
  case jump =>
    obtain ⟨t, hnext, ht⟩ := jalmnxtiOp_serves (nextInterrupt_some hreq hlevel hshv) ha h rd
    obtain ⟨hwrote, hregs, hmem, hpc, hcount, houtside, hpriv, hres, htimer, herrors, hlog, hcsr, heclic⟩ :=
      changesOnly_after_claim (s := s) ht rfl rfl
    rw [claimNext_eclic] at heclic
    refine ⟨t, hnext, hwrote, hregs, hpc, hcount, hcsr, fun i hi => ?others, fun src hsrc => ?source, ?nlbits, ?mth, hmem,
      houtside, hpriv, hres, htimer, herrors, hlog⟩
    case others => rw [heclic, claim_getElem?, if_neg hi]
    case source => rw [heclic, claim_getElem?, if_pos rfl, hsrc, Option.map_some]
    case nlbits => rw [heclic, claim_nlbits]
    case mth => rw [heclic, claim_mth]

end Sys2Proof.Machine
end

section
/-! PROOF. The M extension (44_m_muldiv.md R310 to R319): the products, quotients and remainders as operations on words
of 64 and 32 bits, then the eight instructions and the law of division. -/

namespace Sys2Proof.Machine

/-! ## The products (R311 to R313) -/

/-- The zero extension of a word, as an integer. -/
theorem setWidth_eq_ofInt (v : Word) (n : Nat) : v.setWidth n = BitVec.ofInt n v.toNat :=
  BitVec.eq_of_toNat_eq (by simp)

/-- The high word of an exact product is the high slice of the product of 64-bit words that hold its factors. -/
theorem highProduct_mul (x y : Int) :
    highProduct (x * y) = (BitVec.ofInt 64 x * BitVec.ofInt 64 y).extractLsb' 32 32 := by
  rw [← BitVec.ofInt_mul]
  refine BitVec.eq_of_toNat_eq ?_
  simp only [highProduct, BitVec.extractLsb'_toNat, BitVec.toNat_ofInt, Nat.shiftRight_eq_div_pow]
  omega

/-! ## The quotients and remainders (R314 to R317, R319) -/

theorem ofInt_tdiv_toInt (a b : Word) : BitVec.ofInt 32 (a.toInt.tdiv b.toInt) = a.sdiv b :=
  BitVec.eq_of_toInt_eq (by rw [BitVec.toInt_ofInt, BitVec.toInt_sdiv])

theorem ofInt_tmod_toInt (a b : Word) : BitVec.ofInt 32 (a.toInt.tmod b.toInt) = a.srem b := by
  rw [← BitVec.toInt_srem, BitVec.ofInt_toInt]

/-- The case of overflow agrees with the division of words, which wraps around. -/
theorem divSigned_eq (a b : Word) : divSigned a b = if b = 0#32 then 0xFFFFFFFF#32 else a.sdiv b := by
  unfold divSigned
  refine if_congr Iff.rfl rfl ?_
  split
  case isTrue h => obtain ⟨rfl, rfl⟩ := h; decide
  case isFalse => exact ofInt_tdiv_toInt a b

theorem remSigned_eq (a b : Word) : remSigned a b = if b = 0#32 then a else a.srem b := by
  unfold remSigned
  refine if_congr Iff.rfl rfl ?_
  split
  case isTrue h => obtain ⟨rfl, rfl⟩ := h; decide
  case isFalse => rw [← Int.tmod_def, ofInt_tmod_toInt]

theorem divUnsigned_eq (a b : Word) : divUnsigned a b = if b = 0#32 then 0xFFFFFFFF#32 else a / b := by
  rw [divUnsigned, BitVec.udiv_def]

theorem remUnsigned_eq (a b : Word) : remUnsigned a b = if b = 0#32 then a else a % b := by
  rw [remUnsigned, BitVec.umod_def]

/-! ## The instructions -/

theorem mul_eq_ofNat (a b : Word) : a * b = BitVec.ofNat 32 (a.toNat * b.toNat) :=
  BitVec.eq_of_toNat_eq (by simp)

/-- Settles O18: each is `writeResult` of its rule's value, written as an operation on words. -/
theorem mulDivResults : Obligations.MulDivResults := by
  rintro s rd rs1 rs2 a b rfl rfl
  simp only [setWidth_eq_ofInt]
  refine ⟨?mul, ?mulh, ?mulhsu, ?mulhu, ?div, ?divu, ?rem, ?remu⟩
  case mul => exact exec_computesOnly rfl (mul_eq_ofNat _ _)
  case mulh | mulhsu | mulhu => exact exec_computesOnly rfl (highProduct_mul _ _)
  case div => exact exec_computesOnly rfl (divSigned_eq _ _)
  case divu => exact exec_computesOnly rfl (divUnsigned_eq _ _)
  case rem => exact exec_computesOnly rfl (remSigned_eq _ _)
  case remu => exact exec_computesOnly rfl (remUnsigned_eq _ _)

/-! ## The law of division (R318) -/

theorem sdiv_mul_add_srem (a b : Word) : a.sdiv b * b + a.srem b = a := by
  calc a.sdiv b * b + a.srem b
      = BitVec.ofInt 32 (a.toInt.tdiv b.toInt * b.toInt + a.toInt.tmod b.toInt) := by
        rw [BitVec.ofInt_add, BitVec.ofInt_mul, ofInt_tdiv_toInt, ofInt_tmod_toInt, BitVec.ofInt_toInt]
    _ = BitVec.ofInt 32 a.toInt := by rw [Int.tdiv_mul_add_tmod]
    _ = a := BitVec.ofInt_toInt

theorem udiv_mul_add_umod (a b : Word) : a / b * b + a % b = a :=
  BitVec.eq_of_toNat_eq (by simp [Nat.div_add_mod', Nat.mod_eq_of_lt a.isLt])

/-- With the results of R317 the law holds for a zero divisor too, whatever the quotient. -/
theorem quotient_mul_add_remainder {a b q r : Word} (h : q * b + r = a) :
    (if b = 0#32 then 0xFFFFFFFF#32 else q) * b + (if b = 0#32 then a else r) = a := by
  by_cases hb : b = 0#32
  · simp [hb]
  · rwa [if_neg hb, if_neg hb]

theorem natAbs_toInt_srem_lt (a : Word) {b : Word} (hb : b ≠ 0#32) :
    (a.srem b).toInt.natAbs < b.toInt.natAbs := by
  have hpos : 0 < b.toInt.natAbs := Int.natAbs_pos.2 (BitVec.toInt_zero (w := 32) ▸ BitVec.toInt_ne.2 hb)
  rw [BitVec.toInt_srem, Int.natAbs_tmod]
  exact Nat.mod_lt _ hpos

theorem toNat_umod_lt (a : Word) {b : Word} (hb : b ≠ 0#32) : (a % b).toNat < b.toNat :=
  BitVec.umod_lt a ((BitVec.pos_iff_ne_zero b).2 hb)

/-- A computed register other than x0 holds the value. -/
theorem ComputesOnly.getReg_eq {len v : Word} {rd : Reg} {s t : State} (h : ComputesOnly len rd v s t)
    (hrd : rd ≠ 0#5) : getReg t rd = v :=
  h.1.trans (if_neg hrd)

/-- Settles O19: the results of O18 are read back from rd; the law is that of the quotient and remainder of words. -/
theorem divisionLaw : Obligations.DivisionLaw := by
  intro s rd rs1 rs2 a b ha hb hrd
  obtain ⟨-, -, -, -, ⟨q, hdiv, hq⟩, ⟨qu, hdivu, hqu⟩, ⟨r, hrem, hr⟩, ⟨ru, hremu, hru⟩⟩ :=
    mulDivResults s rd rs1 rs2 a b ha hb
  refine ⟨q, r, qu, ru, hdiv, hrem, hdivu, hremu, ?_⟩
  rw [hq.getReg_eq hrd, hr.getReg_eq hrd, hqu.getReg_eq hrd, hru.getReg_eq hrd]
  refine ⟨quotient_mul_add_remainder (sdiv_mul_add_srem a b), quotient_mul_add_remainder (udiv_mul_add_umod a b),
    fun hne => ?smaller⟩
  rw [if_neg hne, if_neg hne]
  exact ⟨natAbs_toInt_srem_lt a hne, toNat_umod_lt a hne⟩

end Sys2Proof.Machine
end

section
/-! PROOF. The atomics on the platform's memory (45_a_atomic.md R322 to R337): lr.w and sc.w are `loadReserve` and
`storeConditional` at their operands, each AMO is `atomicOp` at its own combination, and where the platform answers the
access each of these is `writeResult` from the state with memory and the reservation updated. -/

namespace Sys2Proof.Machine

section Atomic

variable {s : State} {a : Word}

/-! ## The shared operations where the access is answered -/

theorem loadReserve_mapped (ha : a.toNat % 4 = 0) (h : AllMapped s.cfg a 4) (rd : Reg) :
    loadReserve rd a s = writeResult 4 rd (wordAt s a) { s with reservation := some a } := by
  simp only [loadReserve, (aligned_iff a 4).2 ha, isDevice_memory h.1, readData_wordAt h, Bool.not_true,
    Bool.false_eq_true, if_false, setReg_with_reservation, writeResult]

/-- With its reservation sc.w stores, whatever the platform makes of the store (R324). -/
theorem storeConditional_reserved (ha : a.toNat % 4 = 0) (hp : placeOf s.cfg a = .memory)
    (hres : s.reservation = some a) (rd : Reg) (v : Word) :
    storeConditional rd v a s = writeResult 4 rd 0#32 { storeMemory a 4 v s with reservation := none } := by
  simp only [storeConditional, (aligned_iff a 4).2 ha, isDevice_memory hp, hres, Bool.not_true, Bool.false_eq_true,
    if_false, if_true, setReg_with_reservation, writeResult]

theorem atomicOp_ram (ha : a.toNat % 4 = 0) (h : AllRam s.cfg a 4) (op : Word → Word → Word) (rd : Reg) (v : Word) :
    atomicOp op rd v a s = writeResult 4 rd (wordAt s a) (storeMemory a 4 (op (wordAt s a) v) s) := by
  have hread : readable s.cfg a.toNat 4 = true :=
    (readable_iff _ _ _).2 fun k hk => (isRam_mapped_writable _ _ (h.2 k hk)).1
  have hwrite : writable s.cfg a.toNat 4 = true :=
    (writable_iff _ _ _).2 fun k hk => (isRam_mapped_writable _ _ (h.2 k hk)).2
  have hword : Memory.readLE s.mem a.toNat 4 = wordAt s a := wholeWord_readLE s a
  simp only [atomicOp, (aligned_iff a 4).2 ha, isDevice_memory h.1, hread, hwrite, hword, Bool.and_self, Bool.not_true,
    Bool.false_eq_true, if_false, if_true, writeResult]

/-- An instruction that writes x[rd] and retires after a store to RAM, whatever becomes of the reservation. -/
theorem swapsOnly_of_computesOnly {rd : Reg} {old v : Word} {r : Option Word} {t : State} (hw : s.mem.wf = true)
    (ha : a.toNat % 4 = 0) (h : AllRam s.cfg a 4)
    (hc : ComputesOnly 4 rd old { storeMemory a 4 v s with reservation := r } t) : SwapsOnly rd old a v r s t := by
  rw [storeMemory_ram a 4 v s h] at hc
  obtain ⟨hwrote, hregs, hpc, hcount, hmem, hcontrol, ⟨htimer, heclic, hres⟩, -, herrors⟩ := hc
  have hbound : a.toNat + 4 ≤ 2 ^ 32 := aligned_bound a 4 (by decide) ((aligned_iff a 4).2 ha)
  refine ⟨hwrote, hregs, fun k hk => ?inside, fun b hb => ?outside, hpc, hcount, hcontrol, htimer, heclic, hres,
    herrors⟩
  case inside => exact (hmem (a.toNat + k)).trans (storeBytes_holds a 4 v s hw hbound h k hk)
  case outside => exact (hmem b).trans (storeBytes_sameMemoryBut _ a (wordBytes v 4) s b hb)

end Atomic

/-! ## lr.w and sc.w -/

/-- Settles O39: x[rd] is written from the state with the word reserved. -/
theorem loadReserveResult : Obligations.LoadReserveResult := by
  rintro s rd rs1 aq rl a rfl ha h
  obtain ⟨t, ht, hc⟩ := writeResult_next 4 rd (wordAt s (getReg s rs1)) { s with reservation := some (getReg s rs1) }
  exact ⟨t, (loadReserve_mapped ha h rd).trans ht, hc⟩

/-- Settles O40: with the reservation x[rd] is written from the state with the word stored, else from the old one; both
have no reservation. -/
theorem storeConditionalResult : Obligations.StoreConditionalResult := by
  rintro s rd rs1 rs2 aq rl a hw rfl ha h
  refine ⟨fun hres => ?reserved, fun hres => ?unreserved⟩
  case reserved =>
    obtain ⟨t, ht, hc⟩ :=
      writeResult_next 4 rd 0#32 { storeMemory (getReg s rs1) 4 (getReg s rs2) s with reservation := none }
    exact ⟨t, (storeConditional_reserved ha h.1 hres rd _).trans ht, swapsOnly_of_computesOnly hw ha h hc⟩
  case unreserved =>
    obtain ⟨t, ht, hc⟩ := writeResult_next 4 rd 1#32 { s with reservation := none }
    exact ⟨t, (storeConditional_unreserved ha h.1 hres rd _).trans ht, hc⟩

/-! ## The AMOs -/

/-- An instruction that is `atomicOp` at an aligned address of RAM gives the old word and stores the combination, however
the combination is written. -/
theorem exec_swapsOnly {i : Instr} {s : State} {op : Word → Word → Word} {rd : Reg} {a v w : Word}
    (hexec : exec i s = atomicOp op rd v a s) (hw : s.mem.wf = true) (ha : a.toNat % 4 = 0) (h : AllRam s.cfg a 4)
    (hvalue : op (wordAt s a) v = w) :
    ∃ t, exec i s = .next t ∧ SwapsOnly rd (wordAt s a) a w s.reservation s t := by
  obtain ⟨t, ht, hc⟩ := writeResult_next 4 rd (wordAt s a) (storeMemory a 4 w s)
  have hres : (storeMemory a 4 w s).reservation = s.reservation := by rw [storeMemory_ram a 4 w s h]; rfl
  refine ⟨t, ?next, swapsOnly_of_computesOnly hw ha h ?swaps⟩
  case next => rw [hexec, atomicOp_ram ha h, hvalue, ht]
  case swaps => rwa [← hres]

/-- The minima and maxima by the comparisons of integers (R334 to R337). -/
theorem amoMin_eq (t v : Word) : amoMin t v = if t.toInt < v.toInt then t else v := by
  simp only [amoMin, lessSigned_iff]

theorem amoMax_eq (t v : Word) : amoMax t v = if v.toInt < t.toInt then t else v := by
  simp only [amoMax, lessSigned_iff]

theorem amoMinu_eq (t v : Word) : amoMinu t v = if t.toNat < v.toNat then t else v := by
  simp only [amoMinu, lessUnsigned_iff]

theorem amoMaxu_eq (t v : Word) : amoMaxu t v = if v.toNat < t.toNat then t else v := by
  simp only [amoMaxu, lessUnsigned_iff]

/-- Settles O41: each is `atomicOp` of its rule's combination; the minima and maxima become comparisons of integers. -/
theorem amoResults : Obligations.AmoResults := by
  rintro s rd rs1 rs2 aq rl a x v hw rfl ha h rfl rfl
  simp only [List.forall_mem_cons]
  refine ⟨?swap, ?add, ?xor, ?and, ?or, ?min, ?max, ?minu, ?maxu, List.forall_mem_nil _⟩
  case swap | add | xor | and | or => exact exec_swapsOnly rfl hw ha h rfl
  case min => exact exec_swapsOnly rfl hw ha h (amoMin_eq _ _)
  case max => exact exec_swapsOnly rfl hw ha h (amoMax_eq _ _)
  case minu => exact exec_swapsOnly rfl hw ha h (amoMinu_eq _ _)
  case maxu => exact exec_swapsOnly rfl hw ha h (amoMaxu_eq _ _)

end Sys2Proof.Machine
end

section
/-! PROOF. The C extension (46_c_compressed.md R341 to R367): the instructions that compute are `writeResult` of the value of
their expansion, the loads `loadOp`, the stores `storeOp`, each with a length of 2. -/

namespace Sys2Proof.Machine

/-! ## The instructions that compute -/

/-- c.lui: the immediate above twelve zeros, extended; or extended, then shifted (R349). -/
theorem sext_shiftLeft_twelve (imm : BitVec 6) : sext imm <<< 12 = (imm ++ 0#12).signExtend 32 := by
  revert imm
  decide

/-- Settles O22: each is `writeResult` of its rule's value, but c.nop, which only retires; the shifts become arithmetic. -/
theorem compressedResults : Obligations.CompressedResults := by
  rintro s rd rs2 d r imm n u10 x y rfl rfl
  refine ⟨?addi4spn, ?nop, ?addi, ?li, ?addi16sp, ?lui, ?srli, ?srai, ?andi, ?sub, ?xor, ?or, ?and, ?slli, ?mv, ?add⟩
  case nop => exact ⟨_, rfl, retireTo_changesOnly (s.pc + 2) s⟩
  case lui => exact exec_computesOnly rfl (sext_shiftLeft_twelve imm)
  case srli => exact exec_computesOnly rfl (shiftRightLogical_eq_ofNat _ n)
  case srai => exact exec_computesOnly rfl (shiftRightArith_eq_ofInt _ n)
  case slli => exact exec_computesOnly rfl (shiftLeft_eq_ofNat _ n)
  case addi4spn | addi | li | addi16sp | andi | sub | xor | or | and | mv | add => exact exec_computesOnly rfl rfl

/-! ## Loads and stores -/

/-- Settles O25: each is the word access of its expansion at its own address. -/
theorem compressedLoadsAndStores : Obligations.CompressedLoadsAndStores := by
  rintro s rd rs2 d b u7 u8 a sp hw rfl rfl
  refine ⟨fun h ha => ?lw, fun h ha => ?lwsp, fun h ha => ?sw, fun h ha => ?swsp⟩
  case lw | lwsp => exact exec_loads rfl h ha (wholeWord_readLE s _)
  case sw => exact storeOp_ram hw h (by decide) ha 2 (getReg s (cReg d))
  case swsp => exact storeOp_ram hw h (by decide) ha 2 (getReg s rs2)

end Sys2Proof.Machine
end

section
/-! PROOF. The boundary (60_exceptions.md R410): a reset, the instruction at pc, an NMI, an interrupt, and what a sleeping hart
does. The step is `runAwake` on the state with the inputs sampled, unless a reset comes or the hart stays asleep. -/

namespace Sys2Proof.Machine

/-! ## Reset (70_reset_and_hazards.md R600) -/

theorem step_reset {s : State} (h : (nextSample s).reset = true) : step s = .next (resetEvent s) := if_pos h

/-- Settles O4: the step is `resetEvent`, which gives the fields of `State.resetWith`. -/
theorem resetEventAtBoundary : Obligations.ResetEventAtBoundary := fun s h =>
  ⟨resetEvent s, step_reset h, rfl, rfl, rfl, rfl, rfl, rfl, rfl, rfl, rfl, fun _ => rfl⟩

/-! ## The instruction at pc -/

/-- Bytes of an instruction word at pc that decode to an instruction are its encoding's. -/
theorem decodeEncoding_of_wordAtPc {s : State} {e : Encoding} {i : Instr} (hword : WordAtPc s e)
    (h : decode e.bytes = .ok (i, [])) : decodeEncoding e = .ok i := by
  cases e with
  | half p =>
    have hhalf : isHalf p = true := (isHalf_iff p).2 hword.1
    simp only [Encoding.bytes, decode, halfBytes_append, hhalf, if_true] at h
    split at h <;> cases h
    assumption
  | full w =>
    have hlow : (w.extractLsb' 8 8 ++ w.extractLsb' 0 8).extractLsb' 0 2 = w.extractLsb' 0 2 := by
      refine BitVec.eq_of_getLsbD_eq fun k hk => ?_
      interval_cases k <;> simp only [BitVec.getLsbD_extractLsb', BitVec.getLsbD_append] <;> rfl
    have hfull : isHalf (w.extractLsb' 8 8 ++ w.extractLsb' 0 8) = false := by
      rw [isHalf, hlow, hword.1]
      rfl
    simp only [Encoding.bytes, decode, fullBytes_append, hfull, Bool.false_eq_true, if_false] at h
    split at h <;> cases h
    assumption

theorem runInstruction_decoded {s : State} {e : Encoding} {i : Instr} (hword : WordAtPc s e)
    (hd : decodeEncoding e = .ok i) : runInstruction s = exec i s := by
  simp [runInstruction, nextInstr, fetch_wordAtPc hword, hd]

/-- Settles O8: the step reaches the instruction at pc, which the fetch and the decoder find. -/
theorem stepRunsDecoded : Obligations.StepRunsDecoded := by
  intro s u hgo
  have hstep := step_eq_runInstruction_of_goesOn hgo
  refine ⟨hstep, fun e i hword h => ?_⟩
  have hd := decodeEncoding_of_wordAtPc hword h
  exact ⟨decodeEncoding_wf hd, hstep.trans (runInstruction_decoded hword hd)⟩

/-! ## Which trap the boundary takes -/

section Boundary

variable {s : State}

theorem nmiTaken_eq_true_iff : nmiTaken s = true ↔ s.nmiPending = true ∧ s.csr.typ ≠ .nmi := by simp [nmiTaken]

theorem nmiTaken_eq_false_iff : nmiTaken s = false ↔ s.nmiPending = false ∨ s.csr.typ = .nmi := by
  cases h : s.nmiPending <;> simp [nmiTaken, h]

theorem interruptsEnabled_iff : interruptsEnabled s = true ↔ s.csr.mie = true ∨ s.priv = .user := by
  simp [interruptsEnabled]

theorem eclicMode_iff {r : CsrFile} : eclicMode r = true ↔ r.mtvec.extractLsb' 0 6 = 3#6 := beq_iff_eq

theorem takeableInterrupt_of_request {w : Candidate} (hreq : eclicRequest s.eclic = some w)
    (hlevel : s.csr.mil.toNat < w.level.toNat) (hon : s.csr.mie = true ∨ s.priv = .user) :
    takeableInterrupt s = some w := by
  simp [takeableInterrupt, hreq, hlevel, interruptsEnabled_iff.2 hon]

/-- Without a reset a hart that is awake, or wakes, goes on with the boundary. -/
theorem step_eq_runAwake (hreset : (nextSample s).reset = false) (hwakes : s.sleeping = true → wakes (sample s) = true) :
    step s = runAwake { sample s with sleeping := false } := by
  have hstays : (s.sleeping && !wakes (sample s)) = false := by
    cases hs : s.sleeping with
    | false => rfl
    | true => simp [hwakes hs]
  simp only [step, hreset, runBoundary, sample_sleeping, hstays, Bool.false_eq_true, if_false]

/-- An NMI is taken whether the hart sleeps or not, before an interrupt. -/
theorem step_nmi (hreset : (nextSample s).reset = false) (hnmi : nmiTaken (sample s) = true) :
    step s = .next (enterNmi (sample s)) := by
  rw [step_eq_runAwake hreset fun _ => by simp [wakes, hnmi]]
  exact if_pos hnmi

/-- The entry of an interrupt wakes the hart itself. -/
theorem enterInterrupt_awake (w : Candidate) (s : State) :
    enterInterrupt w { s with sleeping := false } = enterInterrupt w s := rfl

/-- An interrupt is taken whether the hart sleeps or not, in ECLIC mode only. -/
theorem step_interrupt {w : Candidate} (hreset : (nextSample s).reset = false) (hnmi : nmiTaken (sample s) = false)
    (hw : takeableInterrupt (sample s) = some w) :
    step s = if eclicMode s.csr then .next (enterInterrupt w (sample s))
      else .fault .defaultInterruptMode := by
  have hnmi' : nmiTaken { sample s with sleeping := false } = false := hnmi
  have hw' : takeableInterrupt { sample s with sleeping := false } = some w := hw
  rw [step_eq_runAwake hreset fun _ => by simp [wakes, hw]]
  simp only [runAwake, hnmi', hw', Bool.false_eq_true, if_false, enterInterrupt_awake]
  rfl

end Boundary

/-! ## The NMI (R431, R432) -/

theorem nmiEntryAddress_eq (c : Config) (r : CsrFile) :
    nmiEntryAddress c r = if r.nmiCauseFff then r.mtvec.extractLsb' 2 30 ++ 0#2 else c.resetVector := by
  rw [nmiEntryAddress, clearLow2_eq]

/-- Settles O9: the step is `enterNmi` of the sampled state. -/
theorem nmiTakenFirst : Obligations.NmiTakenFirst := by
  rintro s u rfl hreset hpending htyp
  exact ⟨enterNmi (sample s), step_nmi hreset (nmiTaken_eq_true_iff.2 ⟨hpending, htyp⟩), rfl, rfl, rfl, rfl,
    nmiEntryAddress_eq _ _, rfl, sameRegs_of_regs rfl, fun _ => rfl, rfl, rfl, rfl, rfl, rfl, rfl⟩

/-! ## Interrupts (R434 to R437) -/

theorem interruptEntryAddress_eq (r : CsrFile) :
    interruptEntryAddress r
      = if r.mtvt2.getLsbD 0 then r.mtvt2.extractLsb' 2 30 ++ 0#2 else r.mtvec.extractLsb' 2 30 ++ 0#2 := by
  rw [interruptEntryAddress, clearLow2_eq, clearLow2_eq]

section Entry

variable {s : State} {w : Candidate}

/-- An interrupt whose entry condition holds in ECLIC mode is entered from the sampled state. -/
theorem step_enterInterrupt (hreset : (nextSample s).reset = false) (hnmi : nmiTaken (sample s) = false)
    (hreq : eclicRequest (sample s).eclic = some w) (hlevel : (sample s).csr.mil.toNat < w.level.toNat)
    (hon : (sample s).csr.mie = true ∨ (sample s).priv = .user)
    (hmode : (sample s).csr.mtvec.extractLsb' 0 6 = 3#6) :
    step s = .next (enterInterrupt w (sample s)) := by
  rw [step_interrupt hreset hnmi (takeableInterrupt_of_request hreq hlevel hon)]
  exact if_pos (eclicMode_iff.2 hmode)

theorem enterInterrupt_nonVectored (h : w.shv = false) (s : State) :
    enterInterrupt w s = { interruptEntered w s with pc := interruptEntryAddress s.csr } := by
  simp [enterInterrupt, h]

theorem dataAnswer_mapped {a : Word} (h : AllMapped s.cfg a 4) : dataAnswer s a 4 = some (wordAt s a) := by
  have hread : readable s.cfg a.toNat 4 = true := (readable_iff _ _ _).2 h.2
  have hword : Memory.readLE s.mem a.toNat 4 = wordAt s a := wholeWord_readLE s a
  simp only [dataAnswer, h.1, hread, hword, if_true]

theorem dataAnswer_unreadable {a : Word} {n : Nat} (hp : placeOf s.cfg a = .memory)
    (hr : readable s.cfg a.toNat n = false) : dataAnswer s a n = none := by
  simp [dataAnswer, hp, hr]

/-- A vectored interrupt whose table entry is memory's jumps to the entry's word and claims its source (R436). -/
theorem enterInterrupt_vectored (h : w.shv = true) (hm : AllMapped s.cfg (vectorEntry s.csr w.id) 4) :
    enterInterrupt w s = { setMinhv false (interruptEntered w s) with
      eclic := claim s.eclic w.id, pc := clearBit0 (wordAt s (vectorEntry s.csr w.id)) } := by
  have hread : dataAnswer (interruptEntered w s) (vectorEntry (interruptEntered w s).csr w.id) 4
      = some (wordAt s (vectorEntry s.csr w.id)) := dataAnswer_mapped (s := interruptEntered w s) hm
  simp only [enterInterrupt, h, if_true, vectoredJump, hread]
  rfl

/-- Where the read of the table entry fails, the entry is followed by exception 1 (R436, decision D30). -/
theorem enterInterrupt_unreadable (h : w.shv = true) (hp : placeOf s.cfg (vectorEntry s.csr w.id) = .memory)
    (hr : readable s.cfg (vectorEntry s.csr w.id).toNat 4 = false) :
    enterInterrupt w s = takeException (vectorEntry s.csr w.id) codeInstrAccessFault (vectorEntry s.csr w.id)
      (setMinhv true (interruptEntered w s)) := by
  have hread : dataAnswer (interruptEntered w s) (vectorEntry (interruptEntered w s).csr w.id) 4 = none :=
    dataAnswer_unreadable (s := interruptEntered w s) hp hr
  simp only [enterInterrupt, h, if_true, vectoredJump, hread]
  rfl

theorem exceptionEntry_eq (r : CsrFile) : exceptionEntry r = r.mtvec.extractLsb' 2 30 ++ 0#2 := clearLow2_eq r.mtvec

/-- mcause right after the entry of a vectored interrupt, while its table entry is read (R435, R436). -/
theorem mcauseWord_interruptEntered (w : Candidate) (s : State) :
    mcauseWord (setMinhv true (interruptEntered w s)).csr
      = 3#2 ++ privCode s.priv ++ BitVec.ofBool s.csr.mie ++ 0#3 ++ s.csr.mil ++ 0#4 ++ BitVec.ofNat 12 w.id := by
  have hbits : BitVec.ofBool true ++ BitVec.ofBool true = 3#2 := rfl
  rw [← hbits]
  rfl

/-- The CSR fields after the exception that follows the entry: the entry's, with the interrupted context on the first level
of the state stack (R423, R425). -/
theorem csr_takeException_of_interruptEntered (w : Candidate) (s : State) (a : Word) :
    (takeException a codeInstrAccessFault a (setMinhv true (interruptEntered w s))).csr = { s.csr with
      mepc := a, mtval := a, causeInterrupt := false, causeExccode := 1#12, causeMinhv := true
      causeMpil := s.csr.mil, mil := w.level, mpie := false, mie := false, mpp := 3#2, ptyp := .interrupt
      typ := .exception, save2 := s.csr.save1
      save1 :=
        { epc := s.pc, mpie := s.csr.mie, mpp := privCode s.priv, ptyp := s.csr.typ
          cause := 3#2 ++ privCode s.priv ++ BitVec.ofBool s.csr.mie ++ 0#3 ++ s.csr.mil ++ 0#4
            ++ BitVec.ofNat 12 w.id } } := by
  rw [← mcauseWord_interruptEntered]
  rfl

end Entry

/-- What the entry of an interrupt changes, whatever its kind. -/
theorem enterInterrupt_eq_update (w : Candidate) (s : State) :
    enterInterrupt w s = { s with
      csr := (enterInterrupt w s).csr, pc := (enterInterrupt w s).pc, eclic := (enterInterrupt w s).eclic
      priv := .machine, reservation := none, sleeping := false } := by
  unfold enterInterrupt
  split
  · unfold vectoredJump
    split <;> rfl
  · rfl

/-- What it leaves alone, from the sampled state on. -/
theorem enterInterrupt_frame {s t : State} {w : Candidate} (h : enterInterrupt w (sample s) = t) :
    SameRegs s t ∧ SameMemory s t ∧ t.minstret = s.minstret ∧ SameOutside { sample s with sleeping := false } t
      ∧ t.timer = (sample s).timer ∧ t.errorReports = (sample s).errorReports ∧ t.storeLog = (sample s).storeLog := by
  rw [enterInterrupt_eq_update] at h
  subst h
  exact ⟨sameRegs_of_regs rfl, fun _ => rfl, rfl, ⟨rfl, rfl, rfl, rfl, rfl, rfl, rfl, rfl, rfl, rfl⟩, rfl, rfl, rfl⟩

/-- Settles O10: the step enters the interrupt from the sampled state, at the common entry. -/
theorem nonVectoredEntry : Obligations.NonVectoredEntry := by
  rintro s u w rfl hreset hnmi hreq hshv hlevel hon hmode
  have hentry := enterInterrupt_nonVectored hshv (sample s)
  rw [step_enterInterrupt hreset hnmi hreq hlevel hon hmode, hentry]
  exact ⟨_, rfl, interruptEntryAddress_eq _, rfl, rfl, rfl, rfl, rfl, enterInterrupt_frame hentry⟩

/-- Settles O11: the step enters the interrupt from the sampled state, at the word of its table entry. -/
theorem vectoredEntry : Obligations.VectoredEntry := by
  rintro s u w a rfl hreset hnmi hreq hshv hlevel hon hmode rfl hm
  have hentry := enterInterrupt_vectored hshv hm
  rw [step_enterInterrupt hreset hnmi hreq hlevel hon hmode, hentry]
  refine ⟨_, rfl, rfl, rfl, rfl, rfl, rfl, fun i hi => ?others, fun src hsrc => ?source, rfl, rfl,
    enterInterrupt_frame hentry⟩
  case others => exact (claim_getElem? _ _ i).trans (if_neg hi)
  case source =>
    refine (claim_getElem? _ _ w.id).trans ((if_pos rfl).trans ?_)
    rw [hsrc, Option.map_some]

/-- Settles O12: the step enters the interrupt from the sampled state and takes the exception from there. -/
theorem vectorReadFault : Obligations.VectorReadFault := by
  rintro s u w a rfl hreset hnmi hreq hshv hlevel hon hmode rfl hp hr
  have hentry := enterInterrupt_unreadable hshv hp hr
  rw [step_enterInterrupt hreset hnmi hreq hlevel hon hmode, hentry]
  exact ⟨_, rfl, exceptionEntry_eq _, csr_takeException_of_interruptEntered w (sample s) _, rfl, rfl, rfl, rfl,
    enterInterrupt_frame hentry⟩

/-- Settles O13: the interrupt's entry condition holds, and the mode is not the one it is entered in. -/
theorem defaultModeStops : Obligations.DefaultModeStops := by
  rintro s u w rfl hreset hnmi hreq hlevel hon hmode
  rw [step_interrupt hreset hnmi (takeableInterrupt_of_request hreq hlevel hon)]
  exact if_neg (mt eclicMode_iff.1 hmode)

/-! ## Sleep (61_timer_eclic_lowpower.md R504 to R506) -/

section Sleep

variable {s : State}

theorem wakesToContinue_iff :
    wakesToContinue s = true ↔ s.csr.mie = false ∧ s.priv = .machine
      ∧ ((s.csr.wfe = false ∧ (eclicRequest s.eclic).isSome = true) ∨ (s.csr.wfe = true ∧ s.rxEvt = true)) := by
  cases hp : s.priv <;> cases hw : s.csr.wfe <;> simp [wakesToContinue, interruptsEnabled, hp, hw]

/-- With no trap to take, only what `wakesToContinue` asks wakes the hart. -/
theorem wakes_of_no_trap (hnmi : nmiTaken s = false) (hint : takeableInterrupt s = none) :
    wakes s = wakesToContinue s := by simp [wakes, hnmi, hint]

theorem goesOn_of_wakesToContinue (hreset : (nextSample s).reset = false) (hnmi : nmiTaken (sample s) = false)
    (hint : takeableInterrupt (sample s) = none) (hwakes : wakesToContinue (sample s) = true) :
    GoesOn s { sample s with sleeping := false } :=
  ⟨rfl, hreset, fun _ => (wakes_of_no_trap hnmi hint).trans hwakes, hnmi, hint⟩

theorem step_staysAsleep (hreset : (nextSample s).reset = false) (hsleep : s.sleeping = true)
    (hwakes : wakes (sample s) = false) : step s = .next (sample s) := by
  simp [step, hreset, runBoundary, hsleep, hwakes]

end Sleep

/-- Settles O14: with no trap to take the hart goes on exactly if it wakes to continue. -/
theorem sleepingStep : Obligations.SleepingStep := by
  rintro s u rfl hreset hsleep hnmi hint
  replace hnmi := nmiTaken_eq_false_iff.2 hnmi
  have continues (h : wakesToContinue (sample s) = true) :=
    step_eq_runInstruction_of_goesOn (goesOn_of_wakesToContinue hreset hnmi hint h)
  refine ⟨fun hmie hpriv hwfe hreq => continues (wakesToContinue_iff.2 ⟨hmie, hpriv, .inl ⟨hwfe, hreq⟩⟩),
    fun hmie hpriv hwfe hrx => continues (wakesToContinue_iff.2 ⟨hmie, hpriv, .inr ⟨hwfe, hrx⟩⟩), fun h => ?asleep⟩
  case asleep =>
    have hnot : ¬wakesToContinue (sample s) = true := by
      rw [wakesToContinue_iff]
      rintro ⟨hmie, hpriv, ⟨hwfe, hwake⟩ | ⟨hwfe, hwake⟩⟩ <;>
        rcases h with h | h | ⟨h, hno⟩ | ⟨h, hno⟩ <;> simp_all
    have hwakes := (wakes_of_no_trap hnmi hint).trans (Bool.eq_false_iff.2 hnot)
    exact ⟨step_staysAsleep hreset hsleep hwakes, rfl, rfl, rfl, rfl, rfl, hsleep⟩

end Sys2Proof.Machine
end

section
/-! PROOF. Exception entry and the return from a trap (60_exceptions.md R403, R423, R425, R440 to R443): each field of the
state after them, and that the return undoes the entry. -/

namespace Sys2Proof.Machine

/-! ## Entry (R423, R425) -/

/-- Settles O42: each field of the state is the one that `takeException` gives it. -/
theorem exceptionEntry_updates : Obligations.ExceptionEntry := fun s _ _ _ =>
  ⟨exceptionEntry_eq s.csr, rfl, rfl, rfl, sameRegs_of_regs rfl, fun _ => rfl,
    ⟨rfl, rfl, rfl, rfl, rfl, rfl, rfl, rfl, rfl, rfl⟩, rfl, rfl, rfl, rfl, rfl⟩

/-- Settles O43: an exception and an NMI start from `pushState`, an interrupt from the CSR fields as they are. -/
theorem stateStackPush : Obligations.StateStackPush := by
  intro s t epc tval code w
  refine ⟨?pushed, ?kept⟩
  case pushed => rintro (rfl | rfl) <;> exact ⟨rfl, rfl, rfl, rfl, rfl, rfl, rfl, rfl⟩
  case kept =>
    rintro rfl
    exact ⟨rfl, rfl⟩

/-! ## mret (R403, R440 to R442) -/

section Return

variable {s : State}

theorem exec_mret_user (h : s.priv = .user) : exec .mret s = raiseIllegal .mret s := by
  simp only [exec, execMret, h]

theorem exec_mret_machine (h : s.priv = .machine) : exec .mret s = .next (returnFromTrap s) := by
  simp only [exec, execMret, h]

/-- On a code of a mode of the core mret enters that mode. -/
theorem privCode_privOfMpp {c : Config} {v : BitVec 2} (h : v = 3#2 ∨ (v = 0#2 ∧ c.hasUmode = true)) (m : Bool) :
    privCode (privOfMpp c m v) = v := by
  rw [privOfMpp, legalMpp_of_mode c m v h]
  rcases h with rfl | ⟨rfl, -⟩ <;> rfl

/-- mret from an exception or an NMI pops the state stack. -/
theorem returnCsr_exception {c : Config} {r : CsrFile} (hcause : r.causeInterrupt = false)
    (hmpp : r.save1.mpp = 3#2 ∨ (r.save1.mpp = 0#2 ∧ c.hasUmode = true)) (m : Bool) :
    returnCsr c m r = { r with
      mie := r.mpie, typ := r.ptyp
      mepc := r.save1.epc
      causeInterrupt := r.save1.cause.getLsbD 31, causeMinhv := r.save1.cause.getLsbD 30
      causeMpil := r.save1.cause.extractLsb' 16 8, causeExccode := r.save1.cause.extractLsb' 0 12
      mpie := r.save1.mpie, mpp := r.save1.mpp, ptyp := r.save1.ptyp
      save1 := r.save2 } := by
  rw [returnCsr, if_neg (by simp [hcause]), popState, legalMpp_of_mode c m _ hmpp]
  rfl

/-- mret from an interrupt keeps the state stack. -/
theorem returnCsr_interrupt {c : Config} {r : CsrFile} (hcause : r.causeInterrupt = true) (m : Bool) :
    returnCsr c m r = { r with
      mie := r.mpie, typ := r.ptyp, mil := r.causeMpil, mpie := true
      mpp := if c.hasUmode then 0#2 else 3#2 } := by
  rw [returnCsr, if_pos hcause]
  rfl

/-- What every return does, besides what it makes of the CSR fields. -/
theorem returnFromTrap_frame (hmpp : s.csr.mpp = 3#2 ∨ (s.csr.mpp = 0#2 ∧ s.cfg.hasUmode = true)) :
    privCode (returnFromTrap s).priv = s.csr.mpp ∧ SameRegs s (returnFromTrap s) ∧ SameMemory s (returnFromTrap s)
      ∧ SameOutside s (returnFromTrap s) :=
  ⟨privCode_privOfMpp hmpp _, sameRegs_of_regs rfl, fun _ => rfl, rfl, rfl, rfl, rfl, rfl, rfl, rfl, rfl, rfl, rfl⟩

end Return

/-- Settles O45: mret is illegal there, and its word is the one that the rule writes out. -/
theorem mretInUserMode : Obligations.MretInUserMode := by
  intro s hu
  have hword : encodedWord .mret = 0x30200073#32 := by decide
  rw [exec_mret_user hu, raiseIllegal, hword]
  exact raise_next _ _ s

/-- Settles O46: the return pops the state stack. -/
theorem mretFromException : Obligations.MretFromException := by
  intro s hm hcause hmpp hmpp1
  obtain ⟨hpriv, hregs, hmem, houtside⟩ := returnFromTrap_frame hmpp
  exact ⟨returnFromTrap s, exec_mret_machine hm, rfl, hpriv, rfl, returnFromTrap_minstret s,
    returnCsr_exception hcause hmpp1 _, hregs, hmem, houtside, rfl, rfl, rfl, rfl⟩

/-- Settles O47: the return leaves the interrupt. -/
theorem mretFromInterrupt : Obligations.MretFromInterrupt := by
  intro s hm hcause hmpp
  obtain ⟨hpriv, hregs, hmem, houtside⟩ := returnFromTrap_frame hmpp
  exact ⟨returnFromTrap s, exec_mret_machine hm, rfl, hpriv, rfl, returnFromTrap_minstret s,
    returnCsr_interrupt hcause _, hregs, hmem, houtside, rfl, rfl, rfl, rfl⟩

/-! ## The return undoes the entry (R443) -/

theorem privCode_injective : Function.Injective privCode := by
  intro p q h
  cases p <;> cases q <;> simp [privCode] at h ⊢

/-- The mode of a machine that meets the invariant is one of the core. -/
theorem privCode_mode {s : State} (h : s.Inv) :
    privCode s.priv = 3#2 ∨ (privCode s.priv = 0#2 ∧ s.cfg.hasUmode = true) := by
  cases hp : s.priv with
  | user => exact .inr ⟨rfl, h.priv hp⟩
  | machine => exact .inl rfl

theorem mppLegal_iff {v : BitVec 2} : mppLegal v = true ↔ v = 0#2 ∨ v = 3#2 := by simp [mppLegal]

/-- Settles O48: O46 on the state after the entry, which holds the old fields on the first level of the stack. -/
theorem trapThenReturn : Obligations.TrapThenReturn := by
  intro s code tval h hu
  have hmpp1 : s.csr.mpp = 3#2 ∨ (s.csr.mpp = 0#2 ∧ s.cfg.hasUmode = true) :=
    (mppLegal_iff.1 h.csr.mpp).symm.imp_right fun h0 => ⟨h0, hu h0⟩
  obtain ⟨t, hnext, hpc, hpriv, -, -, hcsr, hregs, hmem, -⟩ :=
    mretFromException (takeException s.pc code tval s) rfl rfl (privCode_mode h) hmpp1
  refine ⟨t, hnext, hpc, privCode_injective hpriv, hcsr.trans ?csr, hregs, hmem⟩
  case csr =>
    obtain ⟨hinterrupt, hminhv, hmpil, hexccode⟩ := mcauseWord_fields s.csr
    simp only [takeException, pushState, hinterrupt, hminhv, hmpil, hexccode]

end Sys2Proof.Machine
end

section
/-! PROOF. The ECLIC unit (61_timer_eclic_lowpower.md R462 to R487): the level and the priority of a control byte, the
arbitration, and what one sampling of the inputs does to the sources, the counters and the NMI request. -/

namespace Sys2Proof.Machine

/-! ## Level and priority (R483) -/

/-- Setting the low bits of a number to 1. -/
theorem or_two_pow_sub_one (x k : Nat) : x ||| (2 ^ k - 1) = x / 2 ^ k * 2 ^ k + (2 ^ k - 1) := by
  have hlt : 2 ^ k - 1 < 2 ^ k := Nat.sub_lt (Nat.two_pow_pos k) Nat.one_pos
  rw [Nat.mul_comm, Nat.two_pow_add_eq_or_of_lt hlt]
  refine Nat.eq_of_testBit_eq fun j => ?_
  rw [Nat.testBit_or, Nat.testBit_or, Nat.testBit_two_pow_sub_one, Nat.testBit_two_pow_mul, Nat.testBit_div_two_pow]
  by_cases hj : k ≤ j
  · simp [hj]
  · simp [Nat.lt_of_not_le hj]

theorem ones_ushiftRight_toNat {n : Nat} (hn : n ≤ 8) : (0xFF#8 >>> n).toNat = 2 ^ (8 - n) - 1 := by
  interval_cases n <;> rfl

theorem levelOf_toNat (e : Eclic) (c : Byte) :
    (levelOf e c).toNat
      = c.toNat / 2 ^ (8 - levelBits e) * 2 ^ (8 - levelBits e) + (2 ^ (8 - levelBits e) - 1) := by
  have hn : levelBits e ≤ 8 := Nat.min_le_right _ _
  rw [levelOf, BitVec.toNat_or, ones_ushiftRight_toNat hn, or_two_pow_sub_one]

theorem priorityOf_toNat (e : Eclic) (c : Byte) :
    (priorityOf e c).toNat
      = c.toNat % 2 ^ (8 - levelBits e) * 2 ^ levelBits e + (2 ^ levelBits e - 1) := by
  have hn : levelBits e ≤ 8 := Nat.min_le_right _ _
  have hsplit : 2 ^ 8 = 2 ^ (8 - levelBits e) * 2 ^ levelBits e := by rw [← Nat.pow_add, Nat.sub_add_cancel hn]
  have hones : 2 ^ levelBits e - 1 < 2 ^ levelBits e := Nat.sub_lt (Nat.two_pow_pos _) Nat.one_pos
  have hbyte : 2 ^ levelBits e - 1 < 2 ^ 8 := hones.trans_le (Nat.pow_le_pow_right (by decide) hn)
  have hshift : (c <<< levelBits e).toNat = c.toNat % 2 ^ (8 - levelBits e) * 2 ^ levelBits e := by
    rw [BitVec.toNat_shiftLeft, Nat.shiftLeft_eq, hsplit, Nat.mul_mod_mul_right]
  rw [priorityOf, BitVec.toNat_or, hshift, BitVec.toNat_ofNat, Nat.mod_eq_of_lt hbyte, Nat.mul_comm,
    Nat.two_pow_add_eq_or_of_lt hones]

/-- Numbers are ordered by quotient, then by remainder. -/
theorem lt_iff_div_mod (b c k : Nat) : b < c ↔ b / k < c / k ∨ (b / k = c / k ∧ b % k < c % k) := by
  have hb := Nat.div_add_mod b k
  have hc := Nat.div_add_mod c k
  constructor
  · intro h
    rcases (Nat.div_le_div_right h.le : b / k ≤ c / k).lt_or_eq with hlt | heq
    · exact .inl hlt
    · rw [heq] at hb
      exact .inr ⟨heq, by omega⟩
  · rintro (h | ⟨heq, h⟩)
    · exact Nat.lt_of_not_le fun hle => absurd (Nat.div_le_div_right hle) (Nat.not_le_of_lt h)
    · rw [heq] at hb
      omega

/-- Settles O35: level and priority hold the quotient and the remainder of the control byte. -/
theorem levelAndPriority : Obligations.LevelAndPriority := by
  rintro e c n rfl
  refine ⟨levelOf_toNat e c, priorityOf_toNat e c, fun b => ?order⟩
  case order =>
    have hk : 0 < 2 ^ (8 - levelBits e) := Nat.two_pow_pos _
    have hn : 0 < 2 ^ levelBits e := Nat.two_pow_pos _
    simp only [← BitVec.toNat_inj, levelOf_toNat, priorityOf_toNat, Nat.add_lt_add_iff_right, Nat.add_right_cancel_iff,
      Nat.mul_lt_mul_right hk, Nat.mul_lt_mul_right hn, Nat.mul_left_inj hk.ne']
    exact (lt_iff_div_mod b.toNat c.toNat _).symm

/-! ## The arbitration (R487) -/

/-- The order of the arbitration: level, then priority, then id. -/
def Candidate.Below (a b : Candidate) : Prop :=
  a.level.toNat < b.level.toNat
    ∨ (a.level = b.level
        ∧ (a.priority.toNat < b.priority.toNat ∨ (a.priority = b.priority ∧ a.id < b.id)))

theorem Candidate.Below.trans {a b c : Candidate} (hab : a.Below b) (hbc : b.Below c) : a.Below c := by
  simp only [Candidate.Below, ← BitVec.toNat_inj] at hab hbc ⊢
  omega

theorem Candidate.Below.level_le {a b : Candidate} (h : a.Below b) : a.level.toNat ≤ b.level.toNat := by
  rcases h with h | ⟨h, -⟩
  · exact h.le
  · exact h ▸ le_rfl

/-- Of two candidates the later one in the list wins exactly if it is above the other. -/
theorem below_of_beats {a b : Candidate} (hid : a.id < b.id) (h : beats b a = true) : a.Below b := by
  simp only [beats, Bool.or_eq_true, Bool.and_eq_true, decide_eq_true_eq, beq_iff_eq] at h
  simp only [Candidate.Below, ← BitVec.toNat_inj] at h ⊢
  omega

theorem below_of_not_beats {a b : Candidate} (h : beats b a = false) : b.Below a := by
  simp only [beats, Bool.or_eq_false_iff, Bool.and_eq_false_iff, decide_eq_false_iff_not, beq_eq_false_iff_ne] at h
  simp only [Candidate.Below, ← BitVec.toNat_inj, ne_eq] at h ⊢
  omega

/-- `r` is the one with property `P` that is above all others with it; none if there is none. -/
def IsWinner (P : Candidate → Prop) : Option Candidate → Prop
  | none => ∀ c, ¬P c
  | some w => P w ∧ ∀ c, P c → c ≠ w → c.Below w

/-- A candidate that is below one of the others does not change who wins. -/
theorem IsWinner.insert {P : Candidate → Prop} {r : Option Candidate} {a b : Candidate} (h : IsWinner P r) (hb : P b)
    (hab : a.Below b) : IsWinner (fun c => a = c ∨ P c) r := by
  cases r with
  | none => exact absurd hb (h b)
  | some w =>
    obtain ⟨hw, habove⟩ := h
    refine ⟨.inr hw, fun c hc hne => ?_⟩
    rcases hc with rfl | hc
    · by_cases hbw : b = w
      · exact hbw ▸ hab
      · exact hab.trans (habove b hb hbw)
    · exact habove c hc hne

/-- `c` is the candidate of an enabled and pending source of the list `l`, whose ids begin at `i`. -/
def Contends (e : Eclic) (i : Nat) (l : List Source) (c : Candidate) : Prop :=
  ∃ (j : Nat) (src : Source), l[j]? = some src ∧ src.ie = true ∧ src.ip = true ∧ candidateOf e (i + j) src = c

theorem contends_cons {e : Eclic} {i : Nat} {src : Source} {rest : List Source} {c : Candidate} :
    Contends e i (src :: rest) c
      ↔ (src.ie = true ∧ src.ip = true ∧ candidateOf e i src = c) ∨ Contends e (i + 1) rest c := by
  constructor
  · rintro ⟨j, x, hx, hie, hip, rfl⟩
    cases j with
    | zero =>
      cases hx
      exact .inl ⟨hie, hip, rfl⟩
    | succ j => exact .inr ⟨j, x, hx, hie, hip, by rw [Nat.add_assoc, Nat.add_comm 1 j]⟩
  · rintro (⟨hie, hip, rfl⟩ | ⟨j, x, hx, hie, hip, rfl⟩)
    · exact ⟨0, src, rfl, hie, hip, rfl⟩
    · exact ⟨j + 1, x, hx, hie, hip, by rw [Nat.add_assoc, Nat.add_comm 1 j]⟩

/-- The arbitration finds the winner among the best so far, of a smaller id, and the sources that are left. -/
theorem arbitrate_isWinner (e : Eclic) (l : List Source) (best : Option Candidate) (i : Nat)
    (hbest : ∀ a ∈ best, a.id < i) :
    IsWinner (fun c => c ∈ best ∨ Contends e i l c) (arbitrate e best i l) := by
  induction l generalizing best i with
  | nil =>
    cases best with
    | none => simp [IsWinner, arbitrate, Contends]
    | some a => simp +contextual [IsWinner, arbitrate, Contends]
  | cons src rest ih =>
    simp only [contends_cons]
    by_cases hactive : src.ie = true ∧ src.ip = true
    case neg =>
      have hskip : arbitrate e best i (src :: rest) = arbitrate e best (i + 1) rest :=
        if_neg (by simpa using hactive)
      rw [hskip]
      simpa only [← and_assoc, hactive, false_and, false_or] using ih best (i + 1) fun a ha => Nat.lt_succ_of_lt (hbest a ha)
    case pos =>
      obtain ⟨hie, hip⟩ := hactive
      simp only [arbitrate, hie, hip, true_and, Bool.and_self, if_true]
      have hnew : IsWinner (fun c => candidateOf e i src = c ∨ Contends e (i + 1) rest c)
          (arbitrate e (some (candidateOf e i src)) (i + 1) rest) := by
        simpa using ih (some (candidateOf e i src)) (i + 1) (by simp [candidateOf])
      cases best with
      | none => simpa using hnew
      | some a =>
        have hid : a.id < i := hbest a rfl
        have hold : IsWinner (fun c => a = c ∨ Contends e (i + 1) rest c) (arbitrate e (some a) (i + 1) rest) := by
          simpa using ih (some a) (i + 1) (by simpa using Nat.lt_succ_of_lt hid)
        cases hbeats : beats (candidateOf e i src) a with
        | true =>
          simpa [hbeats] using hnew.insert (.inl rfl) (below_of_beats (b := candidateOf e i src) hid hbeats)
        | false =>
          have h := hold.insert (.inl rfl) (below_of_not_beats hbeats)
          simpa [hbeats, or_left_comm] using h

/-- Settles O36: the request is the winner among all enabled and pending sources, if its level is above mth. -/
theorem arbitrationPicksGreatest : Obligations.ArbitrationPicksGreatest := by
  intro e
  have hwinner : IsWinner (Contends e 0 e.sources) (arbitrate e none 0 e.sources) := by
    simpa using arbitrate_isWinner e e.sources none 0 (by simp)
  have hcontends {j : Nat} {src : Source} (hj : e.sources[j]? = some src) (hie : src.ie = true) (hip : src.ip = true) :
      Contends e 0 e.sources (candidateOf e j src) := ⟨j, src, hj, hie, hip, by rw [Nat.zero_add]⟩
  cases harb : arbitrate e none 0 e.sources with
  | none =>
    rw [harb] at hwinner
    refine ⟨fun w hw => by simp [eclicRequest, harb] at hw, fun _ j src hj hie hip => ?_⟩
    exact absurd (hcontends hj hie hip) (hwinner _)
  | some g =>
    rw [harb] at hwinner
    obtain ⟨⟨i, src, hi, hie, hip, hg⟩, habove⟩ := hwinner
    rw [Nat.zero_add] at hg
    refine ⟨fun w hw => ?request, fun hnone j other hj hie' hip' => ?quiet⟩
    case request =>
      simp only [eclicRequest, harb, Option.ite_none_right_eq_some, Option.some.injEq] at hw
      obtain ⟨hmth, rfl⟩ := hw
      subst hg
      refine ⟨hmth, src, hi, hie, hip, rfl, rfl, rfl, fun j other hj hie' hip' hne => ?_⟩
      exact habove _ (hcontends hj hie' hip') fun h => hne (congrArg Candidate.id h)
    case quiet =>
      have hle : g.level.toNat ≤ e.mth.toNat := by simpa [eclicRequest, harb] using hnone
      by_cases h : candidateOf e j other = g
      · subst h
        exact hle
      · exact (habove _ (hcontends hj hie' hip') h).level_le.trans hle

/-! ## Sampling (R462 to R465, R471, R481) -/

theorem Timer.tick_mtime (t : Timer) (n : Nat) :
    (t.tick n).mtime = if t.timestop then t.mtime else t.mtime + BitVec.ofNat 64 n := by
  unfold Timer.tick
  split <;> rfl

@[simp] theorem Timer.tick_mtimecmp (t : Timer) (n : Nat) : (t.tick n).mtimecmp = t.mtimecmp := by
  unfold Timer.tick
  split <;> rfl

@[simp] theorem Timer.tick_msip (t : Timer) (n : Nat) : (t.tick n).msip = t.msip := by
  unfold Timer.tick
  split <;> rfl

@[simp] theorem Timer.tick_timestop (t : Timer) (n : Nat) : (t.tick n).timestop = t.timestop := by
  unfold Timer.tick
  split <;> rfl

/-- The input of source `i` at the boundary of `s`: the timer has ticked, an error report begins its pulse (R471, R472). -/
def sampledInput (s : State) (i : Nat) : Bool :=
  if i = 17 then errorPulse (nextSample s) s
  else sourceInput (nextSample s) (sample s) i

theorem sample_source (s : State) (i : Nat) :
    (sample s).eclic.sources[i]? = s.eclic.sources[i]?.map (sampleSource (sampledInput s i)) := by
  have hinput : sampledInput s i
      = sourceInput (nextSample s) (advanceTime (nextSample s) (samplePins (nextSample s) s)) (0 + i) := by
    rw [Nat.zero_add]
    by_cases hi : i = 17
    · subst hi
      rfl
    · simp only [sampledInput, sourceInput, hi, if_false]
      rfl
  rw [hinput]
  exact sampleSources_getElem? _ 0 s.eclic.sources i

theorem sampledInput_iff {s : State} {i : Nat} (hi : i ≠ 17) :
    sampledInput s i = true ↔ (i = 3 ∧ s.timer.msip = true)
      ∨ (i = 7 ∧ (sample s).timer.mtimecmp.toNat ≤ (sample s).timer.mtime.toNat)
      ∨ (19 ≤ i ∧ i ∈ (nextSample s).high) := by
  rw [sampledInput, if_neg hi]
  unfold sourceInput
  split
  · simp [*]
  split
  · simp [*, Timer.irq]
  · simp [*]

/-- A source after one sampling, by its trigger mode (R481). -/
theorem sampleSource_eq (input : Bool) (src : Source) :
    sampleSource input src = { src with
      prev := input
      ip := if src.edge = false then input
            else if src.falling then src.ip || (src.prev && !input) else src.ip || (!src.prev && input) } := by
  cases h : src.edge <;> simp [sampleSource, h]

/-- Settles O37: each part of `sample` by its own rule. -/
theorem samplingRules : Obligations.SamplingRules := by
  rintro s u e rfl rfl
  refine ⟨Timer.tick_mtime _ _, Timer.tick_mtimecmp _ _, Timer.tick_msip _ _, Timer.tick_timestop _ _, rfl, ?nmi, rfl, rfl,
    rfl, rfl, rfl, rfl, rfl, rfl, sampleSources_length _ _ _, rfl, rfl, fun i src hsrc hi => ?source⟩
  case nmi => rw [sample_nmiPending, Bool.and_comm]
  case source => exact ⟨sampledInput s i, sampledInput_iff hi, by rw [sample_source, hsrc, ← sampleSource_eq, Option.map_some]⟩

/-- What a boundary does to the outstanding error reports (R472). -/
theorem sample_errorReports (s : State) :
    (sample s).errorReports
      = if errorPulse (nextSample s) s then s.errorReports - 1 else s.errorReports := rfl

theorem errorPulse_iff {e : EnvSample} {s : State} {src : Source} (h : s.eclic.sources[17]? = some src) :
    errorPulse e s = true ↔ e.deliverError = true ∧ 0 < s.errorReports ∧ src.prev = false := by
  simp [errorPulse, prevSample, h, and_assoc]

/-- Settles O38: the input of source 17 is the pulse. -/
theorem errorReportPulse : Obligations.ErrorReportPulse := by
  rintro s u src rfl hsrc
  have hsampled : (sample s).eclic.sources[17]? = some (sampleSource (errorPulse (nextSample s) s) src) := by
    rw [sample_source, hsrc]
    rfl
  refine ⟨fun hdeliver hpos hlow => ?pulse, fun h => ?quiet⟩
  case pulse =>
    have hpulse := (errorPulse_iff (e := nextSample s) hsrc).2 ⟨hdeliver, hpos, hlow⟩
    refine ⟨by rw [sample_errorReports, if_pos hpulse], fun hedge hrising => ⟨_, hsampled, ?_⟩⟩
    simp [sampleSource, hpulse, hedge, hrising, hlow]
  case quiet =>
    have hpulse : errorPulse (nextSample s) s = false := by
      rw [Bool.eq_false_iff, ne_eq, errorPulse_iff hsrc]
      rintro ⟨-, hpos, hlow⟩
      rcases h with h | h
      · omega
      · simp [h] at hlow
    exact ⟨by rw [sample_errorReports, hpulse, if_neg Bool.false_ne_true], _, hsampled, hpulse⟩

end Sys2Proof.Machine
end

section
/-! PROOF. Accesses to the device windows (61_timer_eclic_lowpower.md R460 to R482, 45_a_atomic.md R339): which of them the
windows refuse, what a load from a window reads, and what a store to one changes. -/

namespace Sys2Proof.Machine

/-! ## What a window refuses (decision D22) -/

section Refused

variable {s : State} {a : Word} {r : Refusal}

theorem sizeRefused_iff {c : Config} {n : Nat} :
    sizeRefused c a n = true ↔ n ≠ 4 ∧ ∃ offset, placeOf c a = .timer offset := by
  cases h : placeOf c a <;> simp [sizeRefused, h]

theorem isDevice_iff {c : Config} : isDevice c a = true ↔ placeOf c a ≠ .memory := by
  cases h : placeOf c a <;> simp [isDevice, h]

theorem raise_ne_refused (code : BitVec 12) (tval : Word) (s : State) : raise code tval s ≠ .refused r := nofun

/-- A load stops by its size only. -/
theorem loadOp_eq_refused_iff {len : Word} {n : Nat} {ext : Word → Word} {rd : Reg} :
    loadOp len n ext rd a s = .refused r
      ↔ r = .timerAccessSize ∧ a.toNat % n = 0 ∧ n ≠ 4 ∧ ∃ offset, placeOf s.cfg a = .timer offset := by
  rw [← sizeRefused_iff, ← aligned_iff]
  rcases loadOp_cases len n ext rd a s with ⟨ha, e⟩ | ⟨ha, hs, e⟩ | ⟨ha, hs, e⟩ <;> rw [e, ha]
  · simp [raise_ne_refused]
  · simp [hs, eq_comm (a := r)]
  · simp [hs]

/-- A store too. -/
theorem storeOp_eq_refused_iff {len v : Word} {n : Nat} :
    storeOp len n v a s = .refused r
      ↔ r = .timerAccessSize ∧ a.toNat % n = 0 ∧ n ≠ 4 ∧ ∃ offset, placeOf s.cfg a = .timer offset := by
  rw [← sizeRefused_iff, ← aligned_iff]
  rcases storeOp_cases len n v a s with ⟨ha, e⟩ | ⟨ha, hs, e⟩ | ⟨ha, hs, e⟩ <;> rw [e, ha]
  · simp [raise_ne_refused]
  · simp [hs, eq_comm (a := r)]
  · simp [hs]

/-- An atomic stops by its place only: whatever it does elsewhere is no refusal. -/
theorem atomic_eq_refused_iff {code : BitVec 12} {o : Out} (ho : o ≠ .refused r) :
    (if !aligned a 4 then raise code a s else if isDevice s.cfg a then .refused .atomicOnDevice else o) = .refused r
      ↔ r = .atomicOnDevice ∧ a.toNat % 4 = 0 ∧ placeOf s.cfg a ≠ .memory := by
  rw [← isDevice_iff, ← aligned_iff]
  cases aligned a 4 <;> cases isDevice s.cfg a <;> simp [raise_ne_refused, ho, eq_comm (a := r)]

theorem loadReserve_eq_refused_iff {rd : Reg} :
    loadReserve rd a s = .refused r ↔ r = .atomicOnDevice ∧ a.toNat % 4 = 0 ∧ placeOf s.cfg a ≠ .memory :=
  atomic_eq_refused_iff nofun

theorem storeConditional_eq_refused_iff {rd : Reg} {v : Word} :
    storeConditional rd v a s = .refused r ↔ r = .atomicOnDevice ∧ a.toNat % 4 = 0 ∧ placeOf s.cfg a ≠ .memory :=
  atomic_eq_refused_iff (by split <;> nofun)

theorem atomicOp_eq_refused_iff {op : Word → Word → Word} {rd : Reg} {v : Word} :
    atomicOp op rd v a s = .refused r ↔ r = .atomicOnDevice ∧ a.toNat % 4 = 0 ∧ placeOf s.cfg a ≠ .memory :=
  atomic_eq_refused_iff (by split <;> nofun)

end Refused

/-- Settles O32: each is `loadOp`, `storeOp` or one of the atomic operations, which refuse exactly these accesses. -/
theorem deviceRefusals : Obligations.DeviceRefusals := by
  rintro s rd rs1 rs2 imm a off aq rl rfl
  refine ⟨fun hp ha => ?timer, fun hp ha => ?atomic⟩
  case timer =>
    have hbyte : ∀ x : Nat, x % 1 = 0 := Nat.mod_one
    simp only [List.forall_mem_cons]
    exact ⟨loadOp_eq_refused_iff.2 ⟨rfl, hbyte _, by decide, off, hp⟩,
      loadOp_eq_refused_iff.2 ⟨rfl, hbyte _, by decide, off, hp⟩, loadOp_eq_refused_iff.2 ⟨rfl, ha, by decide, off, hp⟩,
      loadOp_eq_refused_iff.2 ⟨rfl, ha, by decide, off, hp⟩, storeOp_eq_refused_iff.2 ⟨rfl, hbyte _, by decide, off, hp⟩,
      storeOp_eq_refused_iff.2 ⟨rfl, ha, by decide, off, hp⟩, List.forall_mem_nil _⟩
  case atomic =>
    refine List.forall_mem_cons.2 ⟨loadReserve_eq_refused_iff.2 ⟨rfl, ha, hp⟩, List.forall_mem_cons.2
      ⟨storeConditional_eq_refused_iff.2 ⟨rfl, ha, hp⟩, fun i hi => ?_⟩⟩
    obtain ⟨op, hop⟩ := exec_amoForms hi
    exact (hop s).trans (atomicOp_eq_refused_iff.2 ⟨rfl, ha, hp⟩)

/-! ## Loads and stores that a window answers -/

section Answered

variable {s : State} {rd rs1 rs2 : Reg} {imm : BitVec 12} {d b : CReg} {u7 : BitVec 7} {u8 : BitVec 8} {n : BitVec 5}

/-- What a load computes depends on the bytes that it reads only. -/
theorem LoadForm.value_congr {p : LoadForm} {v w : Word} (h : ∀ i < 8 * p.bytes, v.getLsbD i = w.getLsbD i) :
    p.value v = p.value w := by
  have hlow : v.setWidth (8 * p.bytes) = w.setWidth (8 * p.bytes) :=
    BitVec.eq_of_getLsbD_eq fun i hi => by simpa [hi] using h i hi
  rw [LoadForm.value, LoadForm.value, hlow]

/-- A load whose read is answered computes the answer, extended, however that is written. -/
theorem exec_loadForms_answered {p : LoadForm} (hp : p ∈ loadForms s rd rs1 imm d b u7 u8)
    (ha : p.addr.toNat % p.bytes = 0) (hsize : sizeRefused s.cfg p.addr p.bytes = false) {v w : Word}
    (hv : dataAnswer s p.addr p.bytes = some v) (hw : p.value v = w) :
    ∃ t, exec p.instr s = .next t ∧ ComputesOnly p.len p.rd w s t := by
  have hexec : exec p.instr s = writeResult p.len p.rd (p.value v) s := by
    simp [(exec_loadForms hp).1, loadOp, (aligned_iff p.addr p.bytes).2 ha, hsize, readExtended, hv, writeResult]
  exact exec_computesOnly hexec hw

/-- A store to a window goes on from the state with the window's registers written. -/
theorem exec_storeForms_device {p : StoreForm} (hp : p ∈ storeForms s rs1 rs2 imm d b u7 u8 n)
    (ha : p.addr.toNat % p.bytes = 0) (hsize : sizeRefused s.cfg p.addr p.bytes = false) {t : Timer} {e : Eclic}
    (hwrite : writeData p.addr p.bytes p.value s = { s with timer := t, eclic := e }) :
    exec p.instr s = .next (retire p.len { s with timer := t, eclic := e })
      ∧ StoresToDevice p.len s (retire p.len { s with timer := t, eclic := e }) := by
  refine ⟨?_, sameRegs_of_regs rfl, rfl, rfl, fun _ => rfl,
    ⟨⟨rfl, rfl, rfl, rfl, rfl, rfl, rfl, rfl, rfl, rfl⟩, rfl, rfl⟩, rfl, rfl, rfl⟩
  simp [(exec_storeForms hp).1, storeOp, (aligned_iff p.addr p.bytes).2 ha, hsize, hwrite]

/-- The TIMER window takes word accesses, the ECLIC window accesses of every size. -/
theorem sizeRefused_word (c : Config) (a : Word) : sizeRefused c a 4 = false := by
  rw [Bool.eq_false_iff, ne_eq, sizeRefused_iff]
  exact fun h => h.1 rfl

theorem sizeRefused_eclic {c : Config} {a : Word} {offset : Nat} (h : placeOf c a = .eclic offset) (n : Nat) :
    sizeRefused c a n = false := by simp [sizeRefused, h]

end Answered

/-! ## The TIMER window (R460 to R465) -/

theorem bitWord_eq (b : Bool) : bitWord b = (BitVec.ofBool b).setWidth 32 := by cases b <;> rfl

/-- The register map as it is read. -/
theorem Timer.read_eq (t : Timer) (off : Nat) :
    t.read off = if off = 0 then t.mtime.extractLsb' 0 32 else if off = 4 then t.mtime.extractLsb' 32 32
      else if off = 8 then t.mtimecmp.extractLsb' 0 32
      else if off = 12 then t.mtimecmp.extractLsb' 32 32
      else if off = 0xFF8 then (BitVec.ofBool t.timestop).setWidth 32
      else if off = 0xFFC then (BitVec.ofBool t.msip).setWidth 32 else 0#32 := by
  rw [← bitWord_eq, ← bitWord_eq]
  rfl

/-- The register map as it is written: each register by its own offsets. -/
theorem Timer.write_cases (t : Timer) (off : Nat) (v : Word) :
    (off = 0 ∧ t.write off v = { t with mtime := t.mtime.extractLsb' 32 32 ++ v }) ∨
    (off = 4 ∧ t.write off v = { t with mtime := v ++ t.mtime.extractLsb' 0 32 }) ∨
    (off = 8 ∧ t.write off v = { t with mtimecmp := t.mtimecmp.extractLsb' 32 32 ++ v }) ∨
    (off = 12 ∧ t.write off v = { t with mtimecmp := v ++ t.mtimecmp.extractLsb' 0 32 }) ∨
    (off = 0xFF8 ∧ t.write off v = { t with timestop := v.getLsbD 0 }) ∨
    (off = 0xFFC ∧ t.write off v = { t with msip := v.getLsbD 0 }) ∨
    (off ∉ [0, 4, 8, 12, 0xFF8, 0xFFC] ∧ t.write off v = t) := by
  by_cases h : off ∈ [0, 4, 8, 12, 0xFF8, 0xFFC]
  · simp only [List.mem_cons, List.not_mem_nil, or_false] at h
    rcases h with rfl | rfl | rfl | rfl | rfl | rfl <;> simp [Timer.write, withLow, withHigh, highHalf, lowHalf]
  · have hnone : t.write off v = t := by
      simp only [List.mem_cons, List.not_mem_nil, or_false, not_or] at h
      simp [Timer.write, h]
    simp only [h, hnone, not_false_iff, and_self, or_true]

theorem Timer.write_fields (t : Timer) (off : Nat) (v : Word) :
    (t.write off v).mtime = (if off = 0 then t.mtime.extractLsb' 32 32 ++ v
        else if off = 4 then v ++ t.mtime.extractLsb' 0 32 else t.mtime) ∧
    (t.write off v).mtimecmp = (if off = 8 then t.mtimecmp.extractLsb' 32 32 ++ v
        else if off = 12 then v ++ t.mtimecmp.extractLsb' 0 32 else t.mtimecmp) ∧
    (t.write off v).timestop = (if off = 0xFF8 then v.getLsbD 0 else t.timestop) ∧
    (t.write off v).msip = (if off = 0xFFC then v.getLsbD 0 else t.msip) := by
  rcases t.write_cases off v with ⟨rfl, e⟩ | ⟨rfl, e⟩ | ⟨rfl, e⟩ | ⟨rfl, e⟩ | ⟨rfl, e⟩ | ⟨rfl, e⟩ | ⟨h, e⟩ <;> rw [e]
  case inr.inr.inr.inr.inr.inr =>
    simp only [List.mem_cons, List.not_mem_nil, or_false, not_or] at h
    simp [h]
  all_goals simp

/-- Settles O31: a word access is answered by `Timer.read` and `Timer.write`. -/
theorem timerWordAccess : Obligations.TimerWordAccess := by
  intro s rd rs1 rs2 imm d b u7 u8 n off
  refine ⟨fun p hp hword ha hplace => ?load, fun p hp hword ha hplace => ?store⟩
  case load =>
    have hanswer : dataAnswer s p.addr p.bytes = some (s.timer.read off) := by simp [dataAnswer, hplace]
    refine exec_loadForms_answered hp (hword ▸ ha) (hword ▸ sizeRefused_word _ _) hanswer ?_
    rw [p.value_word hword, Timer.read_eq]
  case store =>
    have hwrite : writeData p.addr p.bytes p.value s
        = { s with timer := s.timer.write off p.value, eclic := s.eclic } := by simp [writeData, hplace]
    obtain ⟨hexec, hstores⟩ := exec_storeForms_device hp (hword ▸ ha) (hword ▸ sizeRefused_word _ _) hwrite
    exact ⟨_, hexec, hstores, rfl, s.timer.write_fields off p.value⟩

/-! ## The ECLIC window: several byte registers (R474) -/

/-- Byte registers that hold the bytes of `w` read as the bits of `w`. -/
theorem eclicRead_getLsbD {c : Config} {e : Eclic} {offset n : Nat} {w : Word}
    (h : ∀ j < n, eclicReadByte c e (offset + j) = w.extractLsb' (8 * j) 8) :
    ∀ i < 8 * n, (eclicRead c e offset n).getLsbD i = w.getLsbD i := by
  induction n generalizing offset w with
  | zero => intro i hi; omega
  | succ n ih =>
    intro i hi
    have hfirst : eclicReadByte c e offset = w.extractLsb' 0 8 := h 0 (Nat.zero_lt_succ n)
    have hrest : ∀ j < n, eclicReadByte c e (offset + 1 + j) = (w >>> 8).extractLsb' (8 * j) 8 := by
      intro j hj
      rw [Nat.add_assoc, Nat.add_comm 1 j, h (j + 1) (by omega)]
      ext k hk
      simp only [BitVec.getElem_extractLsb', BitVec.getLsbD_ushiftRight]
      congr 1
      omega
    rw [eclicRead, BitVec.getLsbD_or, BitVec.getLsbD_setWidth, BitVec.getLsbD_shiftLeft, hfirst]
    by_cases hi8 : i < 8
    · have hi32 : i < 32 := by omega
      simp [hi8, hi32]
    · have hbit := ih hrest (i - 8) (by omega)
      rw [BitVec.getLsbD_ushiftRight, Nat.add_sub_cancel' (by omega : 8 ≤ i)] at hbit
      by_cases hi32 : i < 32
      · simp [hi8, hi32, hbit]
      · simp [hi32, BitVec.getLsbD_of_ge w i (by omega)]

/-- A load from the ECLIC window computes the bytes that the registers hold. -/
theorem exec_loadForms_eclic {s : State} {rd rs1 : Reg} {imm : BitVec 12} {d b : CReg} {u7 : BitVec 7} {u8 : BitVec 8}
    {p : LoadForm} (hp : p ∈ loadForms s rd rs1 imm d b u7 u8) (ha : p.addr.toNat % p.bytes = 0) {offset : Nat}
    (hplace : placeOf s.cfg p.addr = .eclic offset) {w : Word}
    (hbytes : ∀ j < p.bytes, eclicReadByte s.cfg s.eclic (offset + j) = w.extractLsb' (8 * j) 8) :
    ∃ t, exec p.instr s = .next t ∧ ComputesOnly p.len p.rd (p.value w) s t := by
  have hanswer : dataAnswer s p.addr p.bytes = some (eclicRead s.cfg s.eclic offset p.bytes) := by
    simp [dataAnswer, hplace]
  exact exec_loadForms_answered hp ha (sizeRefused_eclic hplace _) hanswer
    (LoadForm.value_congr (eclicRead_getLsbD hbytes))

/-- A store to the ECLIC window writes its byte registers. -/
theorem exec_storeForms_eclic {s : State} {rs1 rs2 : Reg} {imm : BitVec 12} {d b : CReg} {u7 : BitVec 7} {u8 : BitVec 8}
    {n : BitVec 5} {p : StoreForm} (hp : p ∈ storeForms s rs1 rs2 imm d b u7 u8 n) (ha : p.addr.toNat % p.bytes = 0)
    {offset : Nat} (hplace : placeOf s.cfg p.addr = .eclic offset) :
    ∃ t, exec p.instr s = .next t ∧ StoresToDevice p.len s t ∧ t.timer = s.timer
      ∧ t.eclic = eclicWrite s.cfg s.eclic offset (wordBytes p.value p.bytes) := by
  have hwrite : writeData p.addr p.bytes p.value s
      = { s with timer := s.timer, eclic := eclicWrite s.cfg s.eclic offset (wordBytes p.value p.bytes) } := by
    simp [writeData, hplace]
  obtain ⟨hexec, hstores⟩ := exec_storeForms_device hp ha (sizeRefused_eclic hplace _) hwrite
  exact ⟨_, hexec, hstores, rfl, rfl⟩

/-! ## The block of a source (R478 to R482) -/

/-- Settles O33: the bytes read are those of the block, and a store changes that source only. -/
theorem eclicSourceAccess : Obligations.EclicSourceAccess := by
  intro s rd rs1 rs2 imm d b u7 u8 n i k src hsrc hk
  refine ⟨fun p hp hplace hend ha => ?load, fun p hp hplace hend ha => ?store⟩
  case load =>
    refine exec_loadForms_eclic hp ha hplace fun j hj => ?_
    rw [Nat.add_assoc, eclicReadByte_source s.cfg s.eclic i (k + j) src (by omega) hsrc,
      sourceByte_eq src (k + j) (by omega), Nat.mul_add]
    ext l hl
    simp [Nat.add_assoc]
  case store =>
    obtain ⟨t, hexec, hstores, htimer, heclic⟩ := exec_storeForms_eclic hp ha hplace
    rw [eclicWrite_source s.cfg s.eclic i k p.bytes p.value hend (exec_storeForms hp).2] at heclic
    refine ⟨t, hexec, hstores, htimer, by rw [heclic], by rw [heclic], fun j hj => ?others, ?source⟩
    case others => rw [heclic, updateSource_getElem?, if_neg hj]
    case source => rw [heclic, updateSource_getElem?, if_pos rfl, hsrc, Option.map_some]

/-! ## The global registers (R475 to R477) -/

theorem updateSource_of_length_le (f : Source → Source) {i : Nat} {l : List Source} (h : l.length ≤ i) :
    updateSource f i l = l := by
  induction l generalizing i with
  | nil => cases i <;> rfl
  | cons x l ih =>
    cases i with
    | zero => simp at h
    | succ i => rw [updateSource, ih (by simpa using h)]

/-- A byte write outside the blocks of the sources changes no source. -/
theorem eclicWriteByte_sources {c : Config} {e : Eclic} {offset : Nat}
    (h : offset < 0x1000 ∨ 0x1000 + 4 * e.sources.length ≤ offset) (b : Byte) :
    (eclicWriteByte c e offset b).sources = e.sources := by
  rcases eclicWriteByte_cases c e offset b with ⟨-, e'⟩ | ⟨-, e'⟩ | ⟨hle, e'⟩ | ⟨-, -, -, e'⟩ <;> rw [e']
  exact updateSource_of_length_le _ (by omega)

theorem eclicWriteByte_nlbits (c : Config) (e : Eclic) (offset : Nat) (b : Byte) :
    (eclicWriteByte c e offset b).nlbits = if offset = 0 then b.extractLsb' 1 4 else e.nlbits := by
  rcases eclicWriteByte_cases c e offset b with ⟨h, e'⟩ | ⟨h, e'⟩ | ⟨h, e'⟩ | ⟨h, -, -, e'⟩ <;> rw [e']
  · rw [if_pos h]
  all_goals rw [if_neg (by omega)]

theorem eclicWriteByte_mth (c : Config) (e : Eclic) (offset : Nat) (b : Byte) :
    (eclicWriteByte c e offset b).mth = if offset = 0xB then b else e.mth := by
  rcases eclicWriteByte_cases c e offset b with ⟨h, e'⟩ | ⟨h, e'⟩ | ⟨h, e'⟩ | ⟨-, h, -, e'⟩ <;> rw [e']
  case inr.inl => rw [if_pos h]
  all_goals rw [if_neg (by omega)]

/-- Several bytes outside the blocks. -/
theorem eclicWrite_sources {c : Config} {e : Eclic} {offset : Nat} {bs : List Byte}
    (h : offset + bs.length ≤ 0x1000 ∨ 0x1000 + 4 * e.sources.length ≤ offset) :
    (eclicWrite c e offset bs).sources = e.sources := by
  induction bs generalizing e offset with
  | nil => rfl
  | cons b bs ih =>
    rw [List.length_cons] at h
    have hbyte := eclicWriteByte_sources (c := c) (e := e) (offset := offset) (by omega) b
    rw [eclicWrite, ih (by rw [hbyte]; omega), hbyte]

/-- Of several bytes the one at offset 0 is written to nlbits, and the one at offset 0xB to mth. -/
theorem eclicWrite_nlbits (c : Config) (e : Eclic) (offset : Nat) (bs : List Byte) (hbs : 0 < bs.length) :
    (eclicWrite c e offset bs).nlbits = if offset = 0 then bs[0].extractLsb' 1 4 else e.nlbits := by
  have hpast (bs : List Byte) : ∀ (e : Eclic) (offset : Nat), 0 < offset →
      (eclicWrite c e offset bs).nlbits = e.nlbits := by
    induction bs with
    | nil => intros; rfl
    | cons b bs ih =>
      intro e offset h
      rw [eclicWrite, ih _ _ (Nat.succ_pos offset), eclicWriteByte_nlbits, if_neg h.ne']
  cases bs with
  | nil => cases hbs
  | cons b bs => rw [eclicWrite, hpast bs _ _ (Nat.succ_pos offset), eclicWriteByte_nlbits, List.getElem_cons_zero]

theorem eclicWrite_mth (c : Config) (e : Eclic) (offset : Nat) (bs : List Byte) :
    (eclicWrite c e offset bs).mth = if offset ≤ 0xB then bs[0xB - offset]?.getD e.mth else e.mth := by
  induction bs generalizing e offset with
  | nil => simp [eclicWrite]
  | cons b bs ih =>
    rw [eclicWrite, ih, eclicWriteByte_mth]
    rcases Nat.lt_trichotomy offset 0xB with hlt | rfl | hgt
    · have hnext : 0xB - offset = 0xB - (offset + 1) + 1 := by omega
      rw [if_pos (Nat.succ_le_of_lt hlt), if_pos hlt.le, if_neg hlt.ne, hnext, List.getElem?_cons_succ]
    · rfl
    · rw [if_neg (Nat.not_le_of_lt (Nat.lt_succ_of_lt hgt)), if_neg hgt.ne', if_neg (Nat.not_le_of_lt hgt)]

theorem wordBytes_getElem? (v : Word) (n k : Nat) :
    (wordBytes v n)[k]? = if k < n then some (v.extractLsb' (8 * k) 8) else none := by
  split
  case isTrue h =>
    have hk : k < (wordBytes v n).length := by rwa [wordBytes_length]
    rw [List.getElem?_eq_getElem hk, wordBytes_getElem]
  case isFalse h => rwa [List.getElem?_eq_none_iff, wordBytes_length, ← Nat.not_lt]

/-- The bytes of a word that is put together from bytes. -/
theorem extractLsb'_fourBytes (g : Nat → Byte) {j : Nat} (hj : j < 4) :
    (g 3 ++ g 2 ++ g 1 ++ g 0).extractLsb' (8 * j) 8 = g j := by
  refine BitVec.eq_of_getLsbD_eq fun i hi => ?_
  interval_cases j <;> interval_cases i <;>
    simp only [BitVec.getLsbD_extractLsb', BitVec.getLsbD_append] <;> rfl

/-- Settles O34: the bytes read are those of `globalByte`, and a store writes each of its bytes by its own rule. -/
theorem eclicGlobalAccess : Obligations.EclicGlobalAccess := by
  rintro s rd rs1 rs2 imm d b u7 u8 n off g rfl
  refine ⟨fun p hp hplace ha houtside => ?load, fun p hp hplace ha => ?store⟩
  case load =>
    have hsize : p.bytes ≤ 4 := by rcases (exec_loadForms hp).2 with h | h | h <;> omega
    refine exec_loadForms_eclic hp ha hplace fun j hj => ?_
    rw [eclicReadByte_global s.cfg s.eclic (off + j) (by omega)]
    exact (extractLsb'_fourBytes (fun k => globalByte s.cfg s.eclic (off + k)) (by omega)).symm
  case store =>
    obtain ⟨t, hexec, hstores, htimer, heclic⟩ := exec_storeForms_eclic hp ha hplace
    have hpos : 0 < p.bytes := by rcases (exec_storeForms hp).2 with h | h | h <;> omega
    refine ⟨t, hexec, hstores, htimer, fun h => ?sources, ?nlbits, ?mth⟩
    case sources => rw [heclic, eclicWrite_sources (by rwa [wordBytes_length])]
    case nlbits =>
      rw [heclic, eclicWrite_nlbits _ _ _ _ (by rwa [wordBytes_length]), wordBytes_getElem]
      refine if_congr Iff.rfl ?_ rfl
      ext i hi
      simp
    case mth =>
      rw [heclic, eclicWrite_mth, wordBytes_getElem?]
      by_cases hle : off ≤ 0xB
      case neg => rw [if_neg hle, if_neg (fun h => hle h.1)]
      rw [if_pos hle]
      by_cases hlt : 0xB < off + p.bytes
      · rw [if_pos (by omega), if_pos ⟨hle, hlt⟩, Option.getD_some]
      · rw [if_neg (by omega), if_neg (fun h => hlt h.2), Option.getD_none]

end Sys2Proof.Machine
end

section
/-! PROOF. What an instruction does to the control state (60_exceptions.md R402, R404): all but the CSR instructions and mret
keep it or take an exception; in User Mode these do too, and in Machine Mode only mret leaves the mode. -/

namespace Sys2Proof.Machine

/-! ## Answers that keep the control state -/

/-- The privilege, the CSR fields, mcycle and the output tx_evt are as they were. -/
def KeepsControl (s t : State) : Prop :=
  t.priv = s.priv ∧ t.csr = s.csr ∧ t.mcycle = s.mcycle ∧ t.txPulses = s.txPulses

theorem KeepsControl.refl (s : State) : KeepsControl s s := ⟨rfl, rfl, rfl, rfl⟩

/-- The answer is no next state, one that keeps the control state, or the entry of an exception. -/
def KeepsControlOrTraps (s : State) (o : Out) : Prop :=
  ∀ t, o = .next t → KeepsControl s t ∨ ∃ (code : BitVec 12) (tval : Word), t = takeException s.pc code tval s

section Answers

variable {s t : State}

theorem keepsControlOrTraps_next (h : KeepsControl s t) : KeepsControlOrTraps s (.next t) := by
  rintro _ ⟨⟩
  exact .inl h

theorem keepsControlOrTraps_refused (r : Refusal) : KeepsControlOrTraps s (.refused r) :=
  fun _ h => nomatch h

theorem raise_keepsControl (code : BitVec 12) (tval : Word) : KeepsControlOrTraps s (raise code tval s) := by
  rintro _ ⟨⟩
  exact .inr ⟨code, tval, rfl⟩

/-- Writing a register and going on keeps what was kept before. -/
theorem KeepsControl.setReg (h : KeepsControl s t) (rd : Reg) (v : Word) : KeepsControl s (setReg t rd v) := by
  simpa only [KeepsControl, setReg_priv, setReg_csr, setReg_mcycle, setReg_txPulses] using h

theorem KeepsControl.retireTo (h : KeepsControl s t) (target : Word) : KeepsControl s (retireTo target t) := h

theorem KeepsControl.retire (h : KeepsControl s t) (len : Word) : KeepsControl s (retire len t) := h

/-! ## The shared operations -/

theorem writeResult_keepsControl (len : Word) (rd : Reg) (v : Word) (s : State) :
    KeepsControlOrTraps s (writeResult len rd v s) :=
  keepsControlOrTraps_next (((KeepsControl.refl s).setReg rd v).retire len)

theorem retireTo_keepsControl (target : Word) (s : State) : KeepsControlOrTraps s (.next (retireTo target s)) :=
  keepsControlOrTraps_next ((KeepsControl.refl s).retireTo target)

theorem jumpAndLink_keepsControl (len : Word) (rd : Reg) (target : Word) (s : State) :
    KeepsControlOrTraps s (jumpAndLink len rd target s) :=
  keepsControlOrTraps_next (((KeepsControl.refl s).setReg rd _).retireTo target)

theorem readExtended_keepsControl (ext : Word → Word) (s : State) (a : Word) (n : Nat) :
    KeepsControl s (readExtended ext s a n).2 := by
  rcases readExtended_cases ext s a n with ⟨v, -, e⟩ | ⟨-, e⟩ <;> rw [e] <;> exact KeepsControl.refl s

theorem storeMemory_keepsControl (a : Word) (n : Nat) (v : Word) (s : State) : KeepsControl s (storeMemory a n v s) := by
  obtain ⟨p, bytes, e, -, h⟩ := storeMemory_eq a n v s
  rw [h]
  exact KeepsControl.refl s

theorem failedWrite_keepsControl (a : Word) (n : Nat) (s : State) : KeepsControl s (failedWrite a n s) :=
  KeepsControl.refl s

theorem writeData_keepsControl (a : Word) (n : Nat) (v : Word) (s : State) : KeepsControl s (writeData a n v s) := by
  unfold writeData
  split
  · exact KeepsControl.refl s
  · exact KeepsControl.refl s
  · exact storeMemory_keepsControl a n v s

theorem loadOp_keepsControl (len : Word) (n : Nat) (ext : Word → Word) (rd : Reg) (a : Word) (s : State) :
    KeepsControlOrTraps s (loadOp len n ext rd a s) := by
  rcases loadOp_cases len n ext rd a s with ⟨-, e⟩ | ⟨-, -, e⟩ | ⟨-, -, e⟩ <;> rw [e]
  · exact raise_keepsControl _ _
  · exact keepsControlOrTraps_refused _
  · exact keepsControlOrTraps_next (((readExtended_keepsControl ext s a n).setReg rd _).retire len)

theorem storeOp_keepsControl (len : Word) (n : Nat) (v a : Word) (s : State) :
    KeepsControlOrTraps s (storeOp len n v a s) := by
  rcases storeOp_cases len n v a s with ⟨-, e⟩ | ⟨-, -, e⟩ | ⟨-, -, e⟩ <;> rw [e]
  · exact raise_keepsControl _ _
  · exact keepsControlOrTraps_refused _
  · exact keepsControlOrTraps_next ((writeData_keepsControl a n v s).retire len)

theorem loadReserve_keepsControl (rd : Reg) (a : Word) (s : State) : KeepsControlOrTraps s (loadReserve rd a s) := by
  unfold loadReserve
  split
  · exact raise_keepsControl _ _
  split
  · exact keepsControlOrTraps_refused _
  · exact keepsControlOrTraps_next ((readExtended_keepsControl id s a 4).setReg rd _)

theorem storeConditional_keepsControl (rd : Reg) (v a : Word) (s : State) :
    KeepsControlOrTraps s (storeConditional rd v a s) := by
  unfold storeConditional
  split
  · exact raise_keepsControl _ _
  split
  · exact keepsControlOrTraps_refused _
  split
  · exact keepsControlOrTraps_next ((storeMemory_keepsControl a 4 v s).setReg rd 0#32)
  · exact keepsControlOrTraps_next ((KeepsControl.refl s).setReg rd 1#32)

theorem atomicOp_keepsControl (op : Word → Word → Word) (rd : Reg) (v a : Word) (s : State) :
    KeepsControlOrTraps s (atomicOp op rd v a s) := by
  unfold atomicOp
  split
  · exact raise_keepsControl _ _
  split
  · exact keepsControlOrTraps_refused _
  split
  · exact keepsControlOrTraps_next (((storeMemory_keepsControl a 4 _ s).setReg rd _).retire 4)
  · exact keepsControlOrTraps_next (((failedWrite_keepsControl a 4 s).setReg rd _).retire 4)

theorem execEcall_keepsControl (s : State) : KeepsControlOrTraps s (execEcall s) := by
  unfold execEcall
  split <;> exact raise_keepsControl _ _

/-! ## The instructions -/

/-- mret and the six CSR instructions, which can change the control state (R404). -/
def changesControl : Instr → Bool
  | .mret | .csrrw .. | .csrrs .. | .csrrc .. | .csrrwi .. | .csrrsi .. | .csrrci .. => true
  | _ => false

theorem changesControl_cases {i : Instr} (h : changesControl i = true) :
    i = .mret ∨ ∃ rd r a wr, (i, wr) ∈ csrForms rd r a := by
  cases i
  case mret => exact .inl rfl
  case csrrw rd r a => exact .inr ⟨rd, r, a, true, .head _⟩
  case csrrs rd r a => exact .inr ⟨rd, r, a, r != 0#5, .tail _ (.head _)⟩
  case csrrc rd r a => exact .inr ⟨rd, r, a, r != 0#5, .tail _ (.tail _ (.head _))⟩
  case csrrwi rd r a => exact .inr ⟨rd, r, a, true, .tail _ (.tail _ (.tail _ (.head _)))⟩
  case csrrsi rd r a => exact .inr ⟨rd, r, a, r != 0#5, .tail _ (.tail _ (.tail _ (.tail _ (.head _))))⟩
  case csrrci rd r a => exact .inr ⟨rd, r, a, r != 0#5, .tail _ (.tail _ (.tail _ (.tail _ (.tail _ (.head _)))))⟩
  all_goals cases h

/-- Every other instruction keeps the control state in either mode: each is one of the shared operations. -/
theorem exec_keepsControl {i : Instr} (hi : changesControl i = false) (s : State) : KeepsControlOrTraps s (exec i s) := by
  cases i
  case mret | csrrw | csrrs | csrrc | csrrwi | csrrsi | csrrci => cases hi
  case lui | auipc | addi | slti | sltiu | xori | ori | andi | slli | srli | srai | add | sub | sll | slt | sltu | xor
      | srl | sra | or | and | mul | mulh | mulhsu | mulhu | div | divu | rem | remu | cAddi4spn | cAddi | cLi | cAddi16sp
      | cLui | cSrli | cSrai | cAndi | cSub | cXor | cOr | cAnd | cSlli | cMv | cAdd =>
    exact writeResult_keepsControl _ _ _ s
  case jal | jalr | cJal | cJalr => exact jumpAndLink_keepsControl _ _ _ s
  case cJ | cJr | beq | bne | blt | bge | bltu | bgeu | cBeqz | cBnez | fence | cNop => exact retireTo_keepsControl _ s
  case fenceI | wfi => exact keepsControlOrTraps_next (KeepsControl.refl s)
  case lb | lh | lw | lbu | lhu | cLw | cLwsp => exact loadOp_keepsControl _ _ _ _ _ s
  case sb | sh | sw | cSw | cSwsp => exact storeOp_keepsControl _ _ _ _ s
  case ecall => exact execEcall_keepsControl s
  case ebreak | cEbreak => exact raise_keepsControl _ _
  case lrW => exact loadReserve_keepsControl _ _ s
  case scW => exact storeConditional_keepsControl _ _ _ s
  case amoswapW | amoaddW | amoxorW | amoandW | amoorW | amominW | amomaxW | amominuW | amomaxuW =>
    exact atomicOp_keepsControl _ _ _ _ s

/-! ## User Mode (R402) -/

/-- The registers that User Mode may access are the counters, to read. -/
theorem csrAccess_user (hu : s.priv = .user) {a : CsrAddr} {wr : Bool} {k : Csr} (h : csrAccess s a wr = some k) :
    csrClass k = .uro ∧ wr = false := by
  obtain ⟨hclass, hwr, -⟩ := (accessAllowed_user hu k wr).1 (csrAccess_some h).2
  exact ⟨hclass, hwr⟩

/-- A register that is only read keeps its value. -/
theorem csrOp_read_keepsControl {wr : Bool} (hwr : wr = false) (rd : Reg) (k : Csr) (v : Word) (s : State) :
    KeepsControlOrTraps s (csrOp rd k wr v s) := by
  subst hwr
  rcases csrOp_cases rd k false v s with ⟨r, -, e⟩ | ⟨-, e⟩ <;> rw [e]
  · exact keepsControlOrTraps_refused r
  · exact keepsControlOrTraps_next ((KeepsControl.refl s).setReg rd _)

/-- In User Mode a CSR instruction is illegal or reads a counter. -/
theorem csrForms_keepsControl (hu : s.priv = .user) {rd r : BitVec 5} {a : CsrAddr} {p : Instr × Bool}
    (hp : p ∈ csrForms rd r a) : KeepsControlOrTraps s (exec p.1 s) := by
  cases hacc : csrAccess s a p.2 with
  | none =>
    rw [exec_csrForms_illegal hp hacc]
    exact raise_keepsControl _ _
  | some k =>
    obtain ⟨huro, hwr⟩ := csrAccess_user hu hacc
    have hmnxti : k ≠ .mnxti := by
      rintro rfl
      cases huro
    simp only [csrForms, List.mem_cons, List.not_mem_nil, or_false] at hp
    rcases hp with rfl | rfl | rfl | rfl | rfl | rfl
    case inl | inr.inr.inr.inl => cases hwr
    case inr.inl => exact (exec_csrrs_eq_csrOp hacc rd).symm ▸ csrOp_read_keepsControl hwr rd k _ s
    case inr.inr.inl => exact (exec_csrrc_eq_csrOp hacc rd).symm ▸ csrOp_read_keepsControl hwr rd k _ s
    case inr.inr.inr.inr.inl => exact (exec_csrrsi_eq_csrOp hacc hmnxti rd).symm ▸ csrOp_read_keepsControl hwr rd k _ s
    case inr.inr.inr.inr.inr => exact (exec_csrrci_eq_csrOp hacc hmnxti rd).symm ▸ csrOp_read_keepsControl hwr rd k _ s

theorem exec_user_keepsControl (hu : s.priv = .user) (i : Instr) : KeepsControlOrTraps s (exec i s) := by
  cases hi : changesControl i with
  | false => exact exec_keepsControl hi s
  | true =>
    rcases changesControl_cases hi with rfl | ⟨rd, r, a, wr, hform⟩
    · rw [exec_mret_user hu]
      exact raise_keepsControl _ _
    · exact csrForms_keepsControl hu hform

end Answers

/-- Settles O50: in User Mode each instruction keeps the control state or takes an exception. -/
theorem userModeIsolation : Obligations.UserModeIsolation := by
  intro i s t hu ht
  exact (exec_user_keepsControl hu i t ht).imp_left fun ⟨hpriv, hrest⟩ => ⟨hpriv.trans hu, hrest⟩

/-! ## Machine Mode (R404) -/

/-- The answer is no next state, or one in Machine Mode. -/
def StaysMachine (o : Out) : Prop := ∀ t, o = .next t → t.priv = .machine

section Machine

variable {s : State}

theorem staysMachine_next {t : State} (h : t.priv = .machine) : StaysMachine (.next t) := by
  rintro _ ⟨⟩
  exact h

theorem staysMachine_refused (r : Refusal) : StaysMachine (.refused r) := fun _ h => nomatch h

/-- An answer that keeps the control state or takes an exception stays in Machine Mode. -/
theorem KeepsControlOrTraps.staysMachine {o : Out} (h : KeepsControlOrTraps s o) (hm : s.priv = .machine) :
    StaysMachine o := by
  intro t ht
  rcases h t ht with ⟨hpriv, -⟩ | ⟨code, tval, rfl⟩
  · exact hpriv.trans hm
  · rfl

theorem raise_staysMachine (code : BitVec 12) (tval : Word) : StaysMachine (raise code tval s) := staysMachine_next rfl

theorem csrOp_staysMachine (hm : s.priv = .machine) (rd : Reg) (k : Csr) (wr : Bool) (v : Word) :
    StaysMachine (csrOp rd k wr v s) := by
  rcases csrOp_cases rd k wr v s with ⟨r, -, e⟩ | ⟨-, e⟩ <;> rw [e]
  · exact staysMachine_refused _
  · refine staysMachine_next ?_
    rw [setReg_priv, csrUpdated_frame]
    exact hm

theorem writeResult_staysMachine (hm : s.priv = .machine) (len : Word) (rd : Reg) (v : Word) :
    StaysMachine (writeResult len rd v s) := (writeResult_keepsControl len rd v s).staysMachine hm

theorem scratchSwap_staysMachine (hm : s.priv = .machine) (swap : Bool) (rd rs1 : Reg) :
    StaysMachine (scratchSwap swap rd rs1 s) := by
  unfold scratchSwap
  split
  · refine writeResult_staysMachine ?_ 4 rd _
    exact hm
  · exact writeResult_staysMachine hm 4 rd _

theorem readData_priv (s : State) (a : Word) (n : Nat) : (readData s a n).2.priv = s.priv :=
  (readExtended_keepsControl id s a n).1

theorem jalmnxtiOp_staysMachine (hm : s.priv = .machine) (rd : Reg) : StaysMachine (jalmnxtiOp rd s) := by
  unfold jalmnxtiOp
  split
  · exact staysMachine_next hm
  · refine staysMachine_next ?_
    rw [retireTo_priv, setReg_priv, claimNext_priv]
    exact (readData_priv s _ 4).trans hm

theorem mnxtiValue_priv (s : State) (w : Candidate) : (mnxtiValue s w).2.priv = s.priv := by
  unfold mnxtiValue
  split
  · rfl
  · exact readData_priv s _ 4

theorem mnxtiOp_staysMachine (hm : s.priv = .machine) (set : Bool) (rd : Reg) (u : BitVec 5) :
    StaysMachine (mnxtiOp set rd u s) := by
  cases h : nextInterrupt s with
  | none =>
    rw [mnxtiOp_none h]
    exact writeResult_staysMachine ((mnxtiStatus_priv set u s).trans hm) 4 rd _
  | some w =>
    rw [mnxtiOp_some h]
    refine writeResult_staysMachine ?_ 4 rd _
    rw [mnxtiValue_priv, (mnxtiServed_frame set u w s).1]
    exact hm

theorem pushForm_staysMachine (hm : s.priv = .machine) (rd : Reg) (u : BitVec 5) (v : Word) :
    StaysMachine (if rd = 0#5 then pushOp u v s else .refused .undocumentedCsrForm) := by
  split
  · exact (storeOp_keepsControl 4 4 v _ s).staysMachine hm
  · exact staysMachine_refused _

theorem execCsrrw_staysMachine (hm : s.priv = .machine) (rd rs1 : Reg) (a : CsrAddr) :
    StaysMachine (execCsrrw rd rs1 a s) := by
  unfold execCsrrw
  split
  · exact raise_staysMachine _ _
  · exact jalmnxtiOp_staysMachine hm rd
  · exact scratchSwap_staysMachine hm _ rd rs1
  · exact scratchSwap_staysMachine hm _ rd rs1
  · exact csrOp_staysMachine hm rd _ _ _

theorem execCsrrs_staysMachine (hm : s.priv = .machine) (rd rs1 : Reg) (a : CsrAddr) :
    StaysMachine (execCsrrs rd rs1 a s) := by
  unfold execCsrrs
  split
  · exact raise_staysMachine _ _
  · exact csrOp_staysMachine hm rd _ _ _

theorem execCsrrc_staysMachine (hm : s.priv = .machine) (rd rs1 : Reg) (a : CsrAddr) :
    StaysMachine (execCsrrc rd rs1 a s) := by
  unfold execCsrrc
  split
  · exact raise_staysMachine _ _
  · exact csrOp_staysMachine hm rd _ _ _

theorem execCsrrwi_staysMachine (hm : s.priv = .machine) (rd : Reg) (u : BitVec 5) (a : CsrAddr) :
    StaysMachine (execCsrrwi rd u a s) := by
  unfold execCsrrwi
  split
  · exact raise_staysMachine _ _
  · exact pushForm_staysMachine hm rd u _
  · exact pushForm_staysMachine hm rd u _
  · exact pushForm_staysMachine hm rd u _
  · exact csrOp_staysMachine hm rd _ _ _

theorem execCsrrsi_staysMachine (hm : s.priv = .machine) (rd : Reg) (u : BitVec 5) (a : CsrAddr) :
    StaysMachine (execCsrrsi rd u a s) := by
  unfold execCsrrsi
  split
  · exact raise_staysMachine _ _
  · exact mnxtiOp_staysMachine hm true rd u
  · exact csrOp_staysMachine hm rd _ _ _

theorem execCsrrci_staysMachine (hm : s.priv = .machine) (rd : Reg) (u : BitVec 5) (a : CsrAddr) :
    StaysMachine (execCsrrci rd u a s) := by
  unfold execCsrrci
  split
  · exact raise_staysMachine _ _
  · exact mnxtiOp_staysMachine hm false rd u
  · exact csrOp_staysMachine hm rd _ _ _

theorem exec_staysMachine (hm : s.priv = .machine) {i : Instr} (hi : i ≠ .mret) : StaysMachine (exec i s) := by
  cases hc : changesControl i with
  | false => exact (exec_keepsControl hc s).staysMachine hm
  | true =>
    cases i
    case mret => exact absurd rfl hi
    case csrrw => exact execCsrrw_staysMachine hm _ _ _
    case csrrs => exact execCsrrs_staysMachine hm _ _ _
    case csrrc => exact execCsrrc_staysMachine hm _ _ _
    case csrrwi => exact execCsrrwi_staysMachine hm _ _ _
    case csrrsi => exact execCsrrsi_staysMachine hm _ _ _
    case csrrci => exact execCsrrci_staysMachine hm _ _ _
    all_goals cases hc

end Machine

/-- Settles O51: every other instruction stays in Machine Mode. -/
theorem onlyMretLowersPrivilege : Obligations.OnlyMretLowersPrivilege := by
  intro i s t hm ht hu
  by_contra hi
  cases hu.symm.trans (exec_staysMachine hm hi t ht)

end Sys2Proof.Machine
end

section
/-! PROOF. What stops an instruction (61_timer_eclic_lowpower.md R461, 45_a_atomic.md R339, 43_system_csr.md R304, 11_csr.md
R59, R60): the instructions fall into four kinds, one that always goes on and one for each place where a stop is raised, and
each kind meets the conditions of its own stops only. -/

namespace Sys2Proof.Machine

/-! ## The kinds of instructions -/

/-- Where an instruction can stop: nowhere, by the size of its access, as an atomic, or in its access to a CSR. -/
inductive StopKind where
  | none
  | size
  | atomic
  | csr

def stopKind : Instr → StopKind
  | .lb .. | .lbu .. | .lh .. | .lhu .. | .lw .. | .cLw .. | .cLwsp .. | .sb .. | .sh .. | .sw .. | .cSw .. | .cSwsp .. =>
    .size
  | .lrW .. | .scW .. | .amoswapW .. | .amoaddW .. | .amoxorW .. | .amoandW .. | .amoorW .. | .amominW ..
  | .amomaxW .. | .amominuW .. | .amomaxuW .. => .atomic
  | .csrrw .. | .csrrs .. | .csrrc .. | .csrrwi .. | .csrrsi .. | .csrrci .. => .csr
  | _ => .none

section Kinds

variable {s : State} {i : Instr}

/-- Each condition is one on its own kind of instructions. -/
theorem stopKind_of_narrowTimerAccess (h : NarrowTimerAccess i s) : stopKind i = .size := by
  obtain ⟨rs1, r, imm, offset, -, h | ⟨-, h⟩⟩ := h <;> simp only [List.mem_cons, List.not_mem_nil, or_false] at h <;>
    rcases h with rfl | rfl | rfl <;> rfl

theorem stopKind_of_atomicOnDevice (h : AtomicOnDevice i s) : stopKind i = .atomic := by
  obtain ⟨rd, rs1, rs2, aq, rl, -, -, h⟩ := h
  simp only [List.mem_cons, List.not_mem_nil, or_false] at h
  rcases h with rfl | rfl | rfl | rfl | rfl | rfl | rfl | rfl | rfl | rfl | rfl <;> rfl

theorem stopKind_of_mem_csrForms {rd r : BitVec 5} {a : CsrAddr} {wr : Bool} (h : (i, wr) ∈ csrForms rd r a) :
    stopKind i = .csr := by
  simp only [csrForms, List.mem_cons, List.not_mem_nil, or_false, Prod.mk.injEq] at h
  rcases h with ⟨rfl, -⟩ | ⟨rfl, -⟩ | ⟨rfl, -⟩ | ⟨rfl, -⟩ | ⟨rfl, -⟩ | ⟨rfl, -⟩ <;> rfl

theorem stopKind_of_undocumentedForm (h : UndocumentedForm i s) : stopKind i = .csr := by
  obtain ⟨-, rd, r, h⟩ := h
  have hforms : ∀ j ∈ undocumentedForms rd r, stopKind j = .csr := by
    by_cases hrd : rd = 0#5 <;> simp [undocumentedForms, hrd, stopKind]
  exact hforms i h

theorem stopKind_of_mieMipAccess (h : MieMipAccess i s) : stopKind i = .csr := by
  obtain ⟨-, -, rd, r, a, wr, -, h⟩ := h
  exact stopKind_of_mem_csrForms h

end Kinds

/-! ## The special registers and their described forms (R295 to R304) -/

/-- The special registers at their addresses. -/
def specialTable : List (CsrAddr × Csr) :=
  [(0x345, .mnxti), (0x7ED, .jalmnxti), (0x348, .mscratchcsw), (0x349, .mscratchcswl), (0x7EB, .pushmsubm),
   (0x7EE, .pushmcause), (0x7EF, .pushmepc)]

theorem mem_specialTable_iff {a : CsrAddr} {k : Csr} :
    (a, k) ∈ specialTable ↔ csrAt a = some k ∧ isSpecial k = true := by
  have hsub : ∀ p ∈ csrTable, isSpecial p.2.1 = true → (p.1, p.2.1) ∈ specialTable := by decide
  have hsup : ∀ p ∈ specialTable, csrAt p.1 = some p.2 ∧ isSpecial p.2 = true := by decide
  exact ⟨hsup (a, k), fun ⟨hat, hsp⟩ => hsub _ (mem_csrTable_of_csrAt hat) hsp⟩

theorem csrAt_mie_or_mip {a : CsrAddr} : (∃ k, csrAt a = some k ∧ (k = .mie ∨ k = .mip)) ↔ a = 0x304#12 ∨ a = 0x344#12 := by
  have hsub : ∀ p ∈ csrTable, (p.2.1 = .mie ∨ p.2.1 = .mip) → p.1 = 0x304#12 ∨ p.1 = 0x344#12 := by decide
  constructor
  · rintro ⟨k, hat, hk⟩
    exact hsub _ (mem_csrTable_of_csrAt hat) hk
  · rintro (rfl | rfl)
    · exact ⟨.mie, rfl, .inl rfl⟩
    · exact ⟨.mip, rfl, .inr rfl⟩

/-- The forms of the special registers that the spec describes. -/
def isDescribed : Instr → Csr → Bool
  | .csrrw .., k => [Csr.jalmnxti, .mscratchcsw, .mscratchcswl].contains k
  | .csrrwi rd .., k => rd == 0#5 && [Csr.pushmsubm, .pushmcause, .pushmepc].contains k
  | .csrrsi .., k | .csrrci .., k => k == .mnxti
  | _, _ => false

section Csr

variable {s : State} {i : Instr} {rd r : BitVec 5} {a : CsrAddr} {wr : Bool} {x : Refusal}

/-- R304 by address: a special register in a form that is not described. -/
theorem undocumentedForm_iff (hi : (i, wr) ∈ csrForms rd r a) :
    UndocumentedForm i s ↔ s.priv = .machine ∧ ∃ k, csrAt a = some k ∧ isSpecial k = true ∧ isDescribed i k = false := by
  have htable : (∃ k, csrAt a = some k ∧ isSpecial k = true ∧ isDescribed i k = false)
      ↔ ∃ p ∈ specialTable, a = p.1 ∧ isDescribed i p.2 = false := by
    simp only [← and_assoc, ← mem_specialTable_iff]
    constructor
    · rintro ⟨k, hmem, hd⟩
      exact ⟨(a, k), ⟨hmem, rfl⟩, hd⟩
    · rintro ⟨p, ⟨hmem, rfl⟩, hd⟩
      exact ⟨p.2, hmem, hd⟩
  rw [UndocumentedForm, htable]
  refine and_congr_right fun _ => ?_
  simp only [csrForms, List.mem_cons, List.not_mem_nil, or_false, Prod.mk.injEq] at hi
  rcases hi with ⟨rfl, -⟩ | ⟨rfl, -⟩ | ⟨rfl, -⟩ | ⟨rfl, -⟩ | ⟨rfl, -⟩ | ⟨rfl, -⟩
  case inr.inr.inr.inl => simp [undocumentedForms, specialTable, isDescribed, exists_or, and_comm]
  all_goals simp [undocumentedForms, specialTable, isDescribed, exists_or]

/-- R59, R60 by address. -/
theorem mieMipAccess_iff (hi : (i, wr) ∈ csrForms rd r a) :
    MieMipAccess i s ↔ s.priv = .machine ∧ eclicMode s.csr = false
      ∧ ∃ k, csrAt a = some k ∧ (k = .mie ∨ k = .mip) := by
  rw [MieMipAccess, csrAt_mie_or_mip, ← Bool.not_eq_true, eclicMode_iff]
  refine and_congr_right fun _ => and_congr_right fun _ => ⟨?_, fun h => ⟨rd, r, a, wr, h, hi⟩⟩
  rintro ⟨rd', r', a', wr', h, hi'⟩
  suffices a = a' from this ▸ h
  simp only [csrForms, List.mem_cons, List.not_mem_nil, or_false, Prod.mk.injEq] at hi
  rcases hi with ⟨rfl, -⟩ | ⟨rfl, -⟩ | ⟨rfl, -⟩ | ⟨rfl, -⟩ | ⟨rfl, -⟩ | ⟨rfl, -⟩ <;> simp [csrForms] at hi' <;>
    exact hi'.1.2.2

/-! ## The CSR instructions -/

theorem csrRefusal_eq_some_iff {k : Csr} :
    csrRefusal s k = some x ↔ (x = .undocumentedCsrForm ∧ isSpecial k = true)
      ∨ (x = .mieMipOutsideEclicMode ∧ eclicMode s.csr = false ∧ (k = .mie ∨ k = .mip)) := by
  unfold csrRefusal
  cases hsp : isSpecial k with
  | true =>
    have hk : ¬(k = .mie ∨ k = .mip) := by rintro (rfl | rfl) <;> cases hsp
    simp [hk, eq_comm (a := x)]
  | false =>
    by_cases h : (k = .mie ∨ k = .mip) ∧ eclicMode s.csr = false
    · simp [h, eq_comm (a := x)]
    · simp only [h, Bool.false_eq_true, if_false, and_false, false_or, reduceCtorEq, false_iff]
      exact fun ⟨_, hmode, hk⟩ => h ⟨hk, hmode⟩

theorem csrOp_eq_refused_iff {k : Csr} {v : Word} : csrOp rd k wr v s = .refused x ↔ csrRefusal s k = some x := by
  rcases csrOp_cases rd k wr v s with ⟨y, hy, e⟩ | ⟨hy, e⟩ <;> rw [e, hy]
  · simp
  · simp

theorem jalmnxtiOp_next (rd : Reg) (s : State) : ∃ t, jalmnxtiOp rd s = .next t := by
  unfold jalmnxtiOp
  split <;> exact ⟨_, rfl⟩

theorem mnxtiOp_next (set : Bool) (rd : Reg) (u : BitVec 5) (s : State) : ∃ t, mnxtiOp set rd u s = .next t := by
  unfold mnxtiOp
  split <;> exact ⟨_, rfl⟩

theorem scratchSwap_completes (swap : Bool) (rd rs1 : Reg) (s : State) : ∃ t, scratchSwap swap rd rs1 s = .next t := by
  unfold scratchSwap
  split <;> exact ⟨_, rfl⟩

/-- A described form of a special register goes on, or is the store of a push register. -/
theorem exec_described (hi : (i, wr) ∈ csrForms rd r a) {k : Csr} (hacc : csrAccess s a wr = some k)
    (hd : isDescribed i k = true) : (∃ t, exec i s = .next t) ∨ ∃ u v, exec i s = pushOp u v s := by
  simp only [csrForms, List.mem_cons, List.not_mem_nil, or_false, Prod.mk.injEq] at hi
  rcases hi with ⟨rfl, rfl⟩ | ⟨rfl, rfl⟩ | ⟨rfl, rfl⟩ | ⟨rfl, rfl⟩ | ⟨rfl, rfl⟩ | ⟨rfl, rfl⟩
  · simp only [isDescribed, List.contains_iff_mem, List.mem_cons, List.not_mem_nil, or_false] at hd
    rcases hd with rfl | rfl | rfl <;> simp only [exec, execCsrrw, hacc]
    · exact .inl (jalmnxtiOp_next rd s)
    · exact .inl (scratchSwap_completes _ rd r s)
    · exact .inl (scratchSwap_completes _ rd r s)
  · cases hd
  · cases hd
  · simp only [isDescribed, Bool.and_eq_true, beq_iff_eq, List.contains_iff_mem, List.mem_cons, List.not_mem_nil,
      or_false] at hd
    obtain ⟨rfl, rfl | rfl | rfl⟩ := hd <;> simp only [exec, execCsrrwi, hacc, if_true] <;> exact .inr ⟨r, _, rfl⟩
  · obtain rfl : k = .mnxti := by simpa [isDescribed] using hd
    simp only [exec, execCsrrsi, hacc]
    exact .inl (mnxtiOp_next true rd r s)
  · obtain rfl : k = .mnxti := by simpa [isDescribed] using hd
    simp only [exec, execCsrrci, hacc]
    exact .inl (mnxtiOp_next false rd r s)

/-- Any other form is an ordinary access. -/
theorem exec_undescribed (hi : (i, wr) ∈ csrForms rd r a) {k : Csr} (hacc : csrAccess s a wr = some k)
    (hd : isDescribed i k = false) : ∃ v, exec i s = csrOp rd k wr v s := by
  simp only [csrForms, List.mem_cons, List.not_mem_nil, or_false, Prod.mk.injEq] at hi
  rcases hi with ⟨rfl, rfl⟩ | ⟨rfl, rfl⟩ | ⟨rfl, rfl⟩ | ⟨rfl, rfl⟩ | ⟨rfl, rfl⟩ | ⟨rfl, rfl⟩
  · exact ⟨_, exec_csrrw_eq_csrOp hacc (by simpa [isDescribed] using hd) rd⟩
  · exact ⟨_, exec_csrrs_eq_csrOp hacc rd⟩
  · exact ⟨_, exec_csrrc_eq_csrOp hacc rd⟩
  · by_cases hk : k ∈ [Csr.pushmsubm, .pushmcause, .pushmepc]
    · have hrd : rd ≠ 0#5 := by
        rintro rfl
        simp [isDescribed, hk] at hd
      refine ⟨zext r, ?_⟩
      rw [csrOp_special (push_isSpecial k hk).1]
      simp only [List.mem_cons, List.not_mem_nil, or_false] at hk
      rcases hk with rfl | rfl | rfl <;> simp [exec, execCsrrwi, hacc, hrd]
    · exact ⟨_, exec_csrrwi_eq_csrOp hacc hk rd⟩
  · exact ⟨_, exec_csrrsi_eq_csrOp hacc (by simpa [isDescribed] using hd) rd⟩
  · exact ⟨_, exec_csrrci_eq_csrOp hacc (by simpa [isDescribed] using hd) rd⟩

/-- What the six CSR instructions can do: go on, be an ordinary access that is not a described form, or be a push. -/
theorem exec_csrForms_cases (hi : (i, wr) ∈ csrForms rd r a) (s : State) :
    (∃ k v, csrAccess s a wr = some k ∧ isDescribed i k = false ∧ exec i s = csrOp rd k wr v s) ∨
    ((∀ k, csrAccess s a wr = some k → isDescribed i k = true)
      ∧ ((∃ t, exec i s = .next t) ∨ ∃ u v, exec i s = pushOp u v s)) := by
  cases hacc : csrAccess s a wr with
  | none => exact .inr ⟨nofun, .inl ⟨_, exec_csrForms_illegal hi hacc⟩⟩
  | some k =>
    cases hd : isDescribed i k with
    | true =>
      refine .inr ⟨?_, exec_described hi hacc hd⟩
      rintro _ ⟨⟩
      exact hd
    | false =>
      obtain ⟨v, h⟩ := exec_undescribed hi hacc hd
      exact .inl ⟨k, v, rfl, hd, h⟩

/-- The answer of an instruction that goes on. -/
theorem ne_refused_of_next {o : Out} (h : ∃ t, o = .next t) : o ≠ .refused x := by
  obtain ⟨t, rfl⟩ := h
  exact fun h => nomatch h

theorem pushOp_ne_refused (u : BitVec 5) (v : Word) (s : State) : pushOp u v s ≠ .refused x := fun h =>
  (storeOp_eq_refused_iff.1 h).2.2.1 rfl

theorem exec_csrForms_eq_refused_iff (hi : (i, wr) ∈ csrForms rd r a) :
    exec i s = .refused x
      ↔ ∃ k, csrAccess s a wr = some k ∧ isDescribed i k = false ∧ csrRefusal s k = some x := by
  rcases exec_csrForms_cases hi s with ⟨k, v, hacc, hd, h⟩ | ⟨hall, h⟩
  · simp [h, csrOp_eq_refused_iff, hacc, hd]
  · have hne : exec i s ≠ .refused x := by
      rcases h with h | ⟨u, v, h⟩
      · exact ne_refused_of_next h
      · exact h ▸ pushOp_ne_refused u v s
    simp only [hne, false_iff]
    rintro ⟨k, hacc, hd, -⟩
    simp [hall k hacc] at hd

theorem isSpecial_of_isDescribed {k : Csr} (h : isDescribed i k = true) : isSpecial k = true := by
  unfold isDescribed at h
  split at h <;> simp at h
  · rcases h with rfl | rfl | rfl <;> rfl
  · obtain ⟨-, rfl | rfl | rfl⟩ := h <;> rfl
  · exact h ▸ rfl
  · exact h ▸ rfl

/-- The registers that an access can stop on are Machine Mode's, to read and to write. -/
theorem csrAccess_eq_some_iff_machine {k : Csr} (hk : isSpecial k = true ∨ k = .mie ∨ k = .mip) :
    csrAccess s a wr = some k ↔ csrAt a = some k ∧ s.priv = .machine := by
  have hclass : csrClass k = .mrw ∧ k ≠ .mcounteren := by cases k <;> simp [isSpecial] at hk <;> decide
  rw [csrAccess_eq_some_iff]
  refine and_congr_right fun _ => ?_
  cases hp : s.priv with
  | machine => simp [accessAllowed_machine hp, hclass]
  | user => simp [accessAllowed_user hp, hclass]

/-- A CSR instruction stops on an undocumented form or an access to mie or mip, and on nothing else. -/
theorem exec_csr_eq_refused_iff (hi : (i, wr) ∈ csrForms rd r a) :
    exec i s = .refused x ↔ (x = .undocumentedCsrForm ∧ UndocumentedForm i s)
      ∨ (x = .mieMipOutsideEclicMode ∧ MieMipAccess i s) := by
  rw [exec_csrForms_eq_refused_iff hi, undocumentedForm_iff hi, mieMipAccess_iff hi]
  simp only [csrRefusal_eq_some_iff]
  constructor
  · rintro ⟨k, hacc, hd, ⟨rfl, hsp⟩ | ⟨rfl, hmode, hk⟩⟩
    · obtain ⟨hat, hm⟩ := (csrAccess_eq_some_iff_machine (.inl hsp)).1 hacc
      exact .inl ⟨rfl, hm, k, hat, hsp, hd⟩
    · obtain ⟨hat, hm⟩ := (csrAccess_eq_some_iff_machine (.inr hk)).1 hacc
      exact .inr ⟨rfl, hm, hmode, k, hat, hk⟩
  · rintro (⟨rfl, hm, k, hat, hsp, hd⟩ | ⟨rfl, hm, hmode, k, hat, hk⟩)
    · exact ⟨k, (csrAccess_eq_some_iff_machine (.inl hsp)).2 ⟨hat, hm⟩, hd, .inl ⟨rfl, hsp⟩⟩
    · have hordinary : isSpecial k = false := by rcases hk with rfl | rfl <;> rfl
      have hd : isDescribed i k = false := by
        rw [Bool.eq_false_iff]
        exact fun h => by simp [isSpecial_of_isDescribed h] at hordinary
      exact ⟨k, (csrAccess_eq_some_iff_machine (.inr hk)).2 ⟨hat, hm⟩, hd, .inr ⟨rfl, hmode, hk⟩⟩

end Csr

/-! ## The other instructions -/

section Others

variable {s : State} {i : Instr} {x : Refusal}

/-- An instruction of the first kind goes on. -/
theorem exec_next_of_stopKind_none (hi : stopKind i = .none) (s : State) : ∃ t, exec i s = .next t := by
  cases i
  case ecall =>
    simp only [exec, execEcall]
    split <;> exact ⟨_, rfl⟩
  case mret =>
    simp only [exec, execMret]
    split <;> exact ⟨_, rfl⟩
  case lui | auipc | addi | slti | sltiu | xori | ori | andi | slli | srli | srai | add | sub | sll | slt | sltu | xor
      | srl | sra | or | and | mul | mulh | mulhsu | mulhu | div | divu | rem | remu | cAddi4spn | cAddi | cLi | cAddi16sp
      | cLui | cSrli | cSrai | cAndi | cSub | cXor | cOr | cAnd | cSlli | cMv | cAdd | jal | jalr | cJal | cJalr | cJ | cJr
      | beq | bne | blt | bge | bltu | bgeu | cBeqz | cBnez | fence | fenceI | cNop | wfi | ebreak | cEbreak =>
    exact ⟨_, rfl⟩
  all_goals cases hi

theorem exec_size_eq_refused_iff (hi : stopKind i = .size) :
    exec i s = .refused x ↔ x = .timerAccessSize ∧ NarrowTimerAccess i s := by
  cases i
  case lb | lbu | lh | lhu | lw | cLw | cLwsp =>
    refine loadOp_eq_refused_iff.trans (and_congr_right fun _ => ?_)
    simp [NarrowTimerAccess, baseOffset, sext, Nat.mod_one, and_comm]
  case sb | sh | sw | cSw | cSwsp =>
    refine storeOp_eq_refused_iff.trans (and_congr_right fun _ => ?_)
    simp [NarrowTimerAccess, baseOffset, sext, Nat.mod_one, and_comm]
  all_goals cases hi

theorem exec_atomic_eq_refused_iff (hi : stopKind i = .atomic) :
    exec i s = .refused x ↔ x = .atomicOnDevice ∧ AtomicOnDevice i s := by
  cases i
  case lrW =>
    refine loadReserve_eq_refused_iff.trans (and_congr_right fun _ => ?_)
    simp [AtomicOnDevice, and_comm]
  case scW =>
    refine storeConditional_eq_refused_iff.trans (and_congr_right fun _ => ?_)
    simp [AtomicOnDevice, and_comm]
  case amoswapW | amoaddW | amoxorW | amoandW | amoorW | amominW | amomaxW | amominuW | amomaxuW =>
    refine atomicOp_eq_refused_iff.trans (and_congr_right fun _ => ?_)
    simp [AtomicOnDevice, and_comm]
  all_goals cases hi

end Others

/-! ## No fault -/

section NoFault

variable {s : State} {f : Fault}

theorem loadOp_ne_fault (len : Word) (n : Nat) (ext : Word → Word) (rd : Reg) (a : Word) :
    loadOp len n ext rd a s ≠ .fault f := by
  rcases loadOp_cases len n ext rd a s with ⟨-, e⟩ | ⟨-, -, e⟩ | ⟨-, -, e⟩ <;> rw [e] <;> exact fun h => nomatch h

theorem storeOp_ne_fault (len : Word) (n : Nat) (v a : Word) : storeOp len n v a s ≠ .fault f := by
  rcases storeOp_cases len n v a s with ⟨-, e⟩ | ⟨-, -, e⟩ | ⟨-, -, e⟩ <;> rw [e] <;> exact fun h => nomatch h

theorem loadReserve_ne_fault (rd : Reg) (a : Word) : loadReserve rd a s ≠ .fault f := by
  unfold loadReserve
  split_ifs <;> exact fun h => nomatch h

theorem storeConditional_ne_fault (rd : Reg) (v a : Word) : storeConditional rd v a s ≠ .fault f := by
  unfold storeConditional
  split_ifs <;> exact fun h => nomatch h

theorem atomicOp_ne_fault (op : Word → Word → Word) (rd : Reg) (v a : Word) : atomicOp op rd v a s ≠ .fault f := by
  unfold atomicOp
  split_ifs <;> exact fun h => nomatch h

theorem csrOp_ne_fault (rd : Reg) (k : Csr) (wr : Bool) (v : Word) : csrOp rd k wr v s ≠ .fault f := by
  rcases csrOp_cases rd k wr v s with ⟨r, -, e⟩ | ⟨-, e⟩ <;> rw [e] <;> exact fun h => nomatch h

theorem exec_csrForms_ne_fault {i : Instr} {rd r : BitVec 5} {a : CsrAddr} {wr : Bool}
    (hi : (i, wr) ∈ csrForms rd r a) : exec i s ≠ .fault f := by
  rcases exec_csrForms_cases hi s with ⟨k, v, -, -, h⟩ | ⟨-, ⟨t, h⟩ | ⟨u, v, h⟩⟩ <;> rw [h]
  · exact csrOp_ne_fault rd k wr v
  · exact fun h => nomatch h
  · exact storeOp_ne_fault _ _ v _

/-- An instruction of the last kind is one of the six forms. -/
theorem mem_csrForms_of_stopKind {i : Instr} (h : stopKind i = .csr) : ∃ rd r a wr, (i, wr) ∈ csrForms rd r a := by
  have hchanges : changesControl i = true := by
    cases i
    case csrrw | csrrs | csrrc | csrrwi | csrrsi | csrrci => rfl
    all_goals cases h
  rcases changesControl_cases hchanges with rfl | hforms
  · cases h
  · exact hforms

theorem exec_ne_fault (i : Instr) : exec i s ≠ .fault f := by
  cases hi : stopKind i with
  | none =>
    obtain ⟨t, h⟩ := exec_next_of_stopKind_none hi s
    exact h ▸ fun h => nomatch h
  | csr =>
    obtain ⟨rd, r, a, wr, hform⟩ := mem_csrForms_of_stopKind hi
    exact exec_csrForms_ne_fault hform
  | size =>
    cases i
    case lb | lbu | lh | lhu | lw | cLw | cLwsp => exact loadOp_ne_fault _ _ _ _ _
    case sb | sh | sw | cSw | cSwsp => exact storeOp_ne_fault _ _ _ _
    all_goals cases hi
  | atomic =>
    cases i
    case lrW => exact loadReserve_ne_fault _ _
    case scW => exact storeConditional_ne_fault _ _ _
    case amoswapW | amoaddW | amoxorW | amoandW | amoorW | amominW | amomaxW | amominuW | amomaxuW =>
      exact atomicOp_ne_fault _ _ _ _
    all_goals cases hi

end NoFault

/-- Settles O52: each kind of instruction stops under its own conditions, and meets no other kind's. -/
theorem instructionsStopOnlyByName : Obligations.InstructionsStopOnlyByName := by
  refine fun i s => ⟨fun f => exec_ne_fault i, fun x => ?_⟩
  have hnarrow : stopKind i ≠ .size → ¬NarrowTimerAccess i s := mt stopKind_of_narrowTimerAccess
  have hatomic : stopKind i ≠ .atomic → ¬AtomicOnDevice i s := mt stopKind_of_atomicOnDevice
  have hform : stopKind i ≠ .csr → ¬UndocumentedForm i s := mt stopKind_of_undocumentedForm
  have hmie : stopKind i ≠ .csr → ¬MieMipAccess i s := mt stopKind_of_mieMipAccess
  cases hi : stopKind i with
  | none =>
    have hne : exec i s ≠ .refused x := ne_refused_of_next (exec_next_of_stopKind_none hi s)
    simp [hne, hi, hnarrow, hatomic, hform, hmie]
  | size => simp [exec_size_eq_refused_iff hi, hi, hatomic, hform, hmie]
  | atomic => simp [exec_atomic_eq_refused_iff hi, hi, hnarrow, hform, hmie]
  | csr =>
    obtain ⟨rd, r, a, wr, hforms⟩ := mem_csrForms_of_stopKind hi
    simp [exec_csr_eq_refused_iff hforms, hi, hnarrow, hatomic]

end Sys2Proof.Machine
end
